-- ==== Sys2Proof/Word.lean ====
section
/-! DEFINITION. The word types of the core: bytes, port and parameter nibbles, addresses, slot and
group numbers (spec/00_scope.md R9, R13, R16; spec/10_state.md R30). -/

namespace Sys2Proof

/-- A byte: what one port access or one PCM memory access moves (R84). -/
abbrev Byte := BitVec 8

/-- A port number, 0x0..0xF (R100). -/
abbrev Port := BitVec 4

/-- A 4-bit half of a sub-address: the parameter nibble `r` or the selector nibble `n` (R101). -/
abbrev Nibble := BitVec 4

/-- A PCM memory address (R9, R82). -/
abbrev Addr := BitVec 23

/-- The effective operation word `W` of an odd-port write (R101). -/
abbrev OpWord := BitVec 20

/-- A bank number, 0..3 (R30). -/
abbrev Bank := Fin 4

/-- A group number, 0..11 (R30). -/
abbrev GroupIx := Fin 12

/-- A slot number, 0..47 (R30). -/
abbrev SlotIx := Fin 48

end Sys2Proof
end

