-- ==== Sys2Proof/Config.lean ====
section
/-! DEFINITION. The configuration record of an instance (spec/00_scope.md R10, R12; spec/10_state.md R32;
spec/92_eei_decisions.md, "Switches and parameters at a glance"), as plain data, and the constants the
spec gives no value for.

Real-valued parameters are held as fractions of integers (assumption log, entry 2). A table parameter is
held as a list of overrides: the entries an instance sets, by index. An entry without an override has the
value the spec gives as default (Sys2Proof/Machine/Tables.lean) or, where the spec gives none, the value of
an opaque constant below (entry 1). -/

namespace Sys2Proof

/-- A positive fraction, `(numPred + 1) / (denPred + 1)`. -/
structure PosFrac where
  numPred : Nat
  denPred : Nat
  deriving DecidableEq, Repr, Inhabited

/-- A non-negative fraction, `num / (denPred + 1)`. -/
structure NonnegFrac where
  num : Nat
  denPred : Nat
  deriving DecidableEq, Repr, Inhabited

/-- A signed fraction, `num / (denPred + 1)`. -/
structure SignedFrac where
  num : Int
  denPred : Nat
  deriving DecidableEq, Repr, Inhabited

/-- A real in [-1, +1] as a fraction, `±num / (denPred + 1)` with `num` at most the denominator. -/
structure UnitFrac where
  negative : Bool
  denPred : Nat
  num : Fin (denPred + 2)
  deriving DecidableEq, Repr

/-- The numerator of a positive fraction. -/
abbrev PosFrac.num (x : PosFrac) : Nat := x.numPred + 1

/-- The denominator of a positive fraction. -/
abbrev PosFrac.den (x : PosFrac) : Nat := x.denPred + 1

/-- The denominator of a non-negative fraction. -/
abbrev NonnegFrac.den (x : NonnegFrac) : Nat := x.denPred + 1

/-- The denominator of a signed fraction. -/
abbrev SignedFrac.den (x : SignedFrac) : Nat := x.denPred + 1

/-- The denominator of a fraction in [-1, +1]. -/
abbrev UnitFrac.den (x : UnitFrac) : Nat := x.denPred + 1

/-- The fraction `±num / (denPred + 1)`, at most 1 in magnitude. -/
def UnitFrac.ofRatio (negative : Bool) (num denPred : Nat) : UnitFrac :=
  ⟨negative, denPred, ⟨min num (denPred + 1), Nat.lt_succ_of_le (Nat.min_le_right _ _)⟩⟩

/-- `TIMER_GROUP_DECODE` (R211, D6). -/
inductive TimerGroupDecode
  | fmTab
  | direct
  deriving DecidableEq, Repr

/-- `PCM_ADDR_MODE` (R390, D31). -/
inductive PcmAddrMode
  | relative
  | absolute
  deriving DecidableEq, Repr

/-- `PFM_MODE` (R340, D30). -/
inductive PfmMode
  | romCarrier
  | ignore
  deriving DecidableEq, Repr

/-- The numerics of the phase step, a parameter with default `binary64` (I12, R285). -/
inductive StepNumerics
  | binary64
  | exactRational
  deriving DecidableEq, Repr

/-- The entries of a table parameter that an instance sets, by flat index. -/
abbrev Table (α : Type) := List (Nat × α)

/-- The configuration of an instance: fixed for its life, but for `clock`, which `start` sets (R32, R541).
Flat table indices: `rks` at `4*kc + keyscale`, `lutDetune` at `32*detune + kc`, `alfoGain` at
`65537*ams + amplitude`, `lfoShape` and `alfo` at `256*wave + phase`. What the spec fixes of a table whatever an instance
sets is fixed where the table is read (Sys2Proof/Machine/Tables.lean; entry 25). -/
structure Config where
  /-- `CLOCK` in Hz (R10, R541). -/
  clock : PosFrac
  /-- `SAMPLE_RATE` in Hz (R271, D41). -/
  sampleRate : PosFrac
  timerGroupDecode : TimerGroupDecode
  pcmAddrMode : PcmAddrMode
  pfmMode : PfmMode
  stepNumerics : StepNumerics
  /-- `START_ALLOC_OK` (R502, D39). -/
  startAllocOk : Bool
  /-- `LUT_AR` in samples at `STD_CLOCK` (R235, D46). -/
  lutAR : Table PosFrac
  /-- `LUT_DC` in samples at `STD_CLOCK` (R235, D46). -/
  lutDC : Table PosFrac
  /-- `LUT_LFO` in Hz at `STD_CLOCK` (R271, D47). -/
  lutLFO : Table NonnegFrac
  /-- `RKS` (R233, D45). -/
  rks : Table Nat
  /-- The magnitudes of `LUT_DETUNE` in F-number units; the row gives the sign (R282, D44). -/
  lutDetune : Table NonnegFrac
  /-- `ALFO_GAIN` (R274, D21). -/
  alfoGain : Table Nat
  /-- The pitch-LFO waves `phi_w(i)` that `PLFO` is built from (R272, D23). -/
  lfoShape : Table UnitFrac
  /-- `ALFO` (R273, D23). -/
  alfo : Table Nat
  /-- `attn` (R432, D49). -/
  attn : Table Nat
  deriving DecidableEq, Repr

/-- `LUT_AR[r]` where the configuration sets no entry: the spec gives no value (R8, R235, D46).
DESIGN CHOICE: a free value, safe (entry 1). -/
opaque Config.attackSamples : Nat → PosFrac

/-- `LUT_DC[r]` where the configuration sets no entry: the spec gives no value (R8, R235, D46).
DESIGN CHOICE: a free value, safe (entry 1). -/
opaque Config.decaySamples : Nat → PosFrac

/-- `LUT_LFO[f]` where the configuration sets no entry: the spec gives no value (R8, R271, D47).
DESIGN CHOICE: a free value, safe (entry 1). -/
opaque Config.lfoHertz : Nat → NonnegFrac

/-- `STD_CLOCK`, 16 934 400 Hz (R10). -/
def stdClock : PosFrac := ⟨16934399, 0⟩

/-- The configuration with every switch and parameter at the default of `92_eei_decisions.md`. -/
def Config.default : Config where
  clock := stdClock
  sampleRate := ⟨44099, 0⟩
  timerGroupDecode := .fmTab
  pcmAddrMode := .relative
  pfmMode := .romCarrier
  stepNumerics := .binary64
  startAllocOk := true
  lutAR := []
  lutDC := []
  lutLFO := []
  rks := []
  lutDetune := []
  alfoGain := []
  lfoShape := []
  alfo := []
  attn := []

end Sys2Proof
end

