-- ==== Sys2Proof/Syntax.lean ====
section
/-! DEFINITION. The instructions: one constructor for each mnemonic of spec/opcode_table.json.
Operands are the fields the row leaves open (spec/30_encoding.md R101, R105): the bank of an FM data port,
the selector nibble `sel`, the parameter nibble `r`, the sub-address `sub`, the data byte, the port of a read,
the algorithm bits that a dispatch row does not look at. -/

namespace Sys2Proof

/-- The host operations that have no bit encoding (R104, R460). -/
inductive HostCall
  /-- `update(N)` (R450) -/
  | update (n : Nat)
  /-- `reset` (R540) -/
  | reset
  /-- `start(CLOCK)` (R541) -/
  | start (clock : PosFrac)
  /-- `timer_tick(A)` (R503) -/
  | tickA
  /-- `timer_tick(B)` (R503) -/
  | tickB
  /-- `alloc_rom(size)` (R463) -/
  | allocRom (size : Nat)
  /-- `write_rom(offset, bytes)` (R464) -/
  | writeRom (offset : Nat) (bytes : List Byte)
  /-- `set_mute(mask)` (R462) -/
  | setMute (mask : BitVec 12)
  deriving DecidableEq, Repr

/-- The instructions, one constructor for each mnemonic of the opcode table. -/
inductive Instr
  /-- `PORT_LATCH_FM0`: write of port 0x0 (R140) -/
  | portLatchFm0 (data : Byte)
  /-- `PORT_LATCH_FM1`: write of port 0x2 (R140) -/
  | portLatchFm1 (data : Byte)
  /-- `PORT_LATCH_FM2`: write of port 0x4 (R140) -/
  | portLatchFm2 (data : Byte)
  /-- `PORT_LATCH_FM3`: write of port 0x6 (R140) -/
  | portLatchFm3 (data : Byte)
  /-- `PORT_LATCH_PCM`: write of port 0x8 (R140) -/
  | portLatchPcm (data : Byte)
  /-- `PORT_LATCH_TIM`: write of port 0xC (R140) -/
  | portLatchTim (data : Byte)
  /-- `PORT_UNUSED_A`: write of port 0xA (R140) -/
  | portUnusedA (data : Byte)
  /-- `PORT_UNUSED_B`: write of port 0xB (R140) -/
  | portUnusedB (data : Byte)
  /-- `PORT_UNUSED_E`: write of port 0xE (R140) -/
  | portUnusedE (data : Byte)
  /-- `PORT_UNUSED_F`: write of port 0xF (R140) -/
  | portUnusedF (data : Byte)
  /-- `FM_INVALID_SEL`: FM data write through a selector that `fm_tab` maps to -1 (R112) -/
  | fmInvalidSel (bank : BitVec 2) (r : Nibble) (sel : Nibble) (data : Byte)
  /-- `FM_KEY`: FM parameter 0x0 (R171) -/
  | fmKey (bank : BitVec 2) (sel : Nibble) (data : Byte)
  /-- `FM_LFOFREQ`: FM parameter 0x1 (R172) -/
  | fmLfofreq (bank : BitVec 2) (sel : Nibble) (data : Byte)
  /-- `FM_LFOWAVE`: FM parameter 0x2 (R173) -/
  | fmLfowave (bank : BitVec 2) (sel : Nibble) (data : Byte)
  /-- `FM_MULDT`: FM parameter 0x3 (R174) -/
  | fmMuldt (bank : BitVec 2) (sel : Nibble) (data : Byte)
  /-- `FM_TL`: FM parameter 0x4 (R175) -/
  | fmTl (bank : BitVec 2) (sel : Nibble) (data : Byte)
  /-- `FM_AR`: FM parameter 0x5 (R176) -/
  | fmAr (bank : BitVec 2) (sel : Nibble) (data : Byte)
  /-- `FM_D1R`: FM parameter 0x6 (R177) -/
  | fmD1r (bank : BitVec 2) (sel : Nibble) (data : Byte)
  /-- `FM_D2R`: FM parameter 0x7 (R178) -/
  | fmD2r (bank : BitVec 2) (sel : Nibble) (data : Byte)
  /-- `FM_RRD1L`: FM parameter 0x8 (R179) -/
  | fmRrd1l (bank : BitVec 2) (sel : Nibble) (data : Byte)
  /-- `FM_FNSLO`: FM parameter 0x9 (R180) -/
  | fmFnslo (bank : BitVec 2) (sel : Nibble) (data : Byte)
  /-- `FM_FNSHI`: FM parameter 0xA (R181) -/
  | fmFnshi (bank : BitVec 2) (sel : Nibble) (data : Byte)
  /-- `FM_WAVE`: FM parameter 0xB (R182) -/
  | fmWave (bank : BitVec 2) (sel : Nibble) (data : Byte)
  /-- `FM_ALG`: FM parameter 0xC (R183) -/
  | fmAlg (bank : BitVec 2) (sel : Nibble) (data : Byte)
  /-- `FM_CH01`: FM parameter 0xD (R184) -/
  | fmCh01 (bank : BitVec 2) (sel : Nibble) (data : Byte)
  /-- `FM_CH23`: FM parameter 0xE (R185) -/
  | fmCh23 (bank : BitVec 2) (sel : Nibble) (data : Byte)
  /-- `FM_RESERVED`: FM parameter 0xF (R186) -/
  | fmReserved (bank : BitVec 2) (sel : Nibble) (data : Byte)
  /-- `PCM_INVALID_SEL`: PCM data write through a selector that `pcm_tab` maps to -1 (R112) -/
  | pcmInvalidSel (r : Nibble) (sel : Nibble) (data : Byte)
  /-- `PCM_START0`: PCM parameter 0x0 (R201) -/
  | pcmStart0 (sel : Nibble) (data : Byte)
  /-- `PCM_START1`: PCM parameter 0x1 (R202) -/
  | pcmStart1 (sel : Nibble) (data : Byte)
  /-- `PCM_START2`: PCM parameter 0x2 (R203) -/
  | pcmStart2 (sel : Nibble) (data : Byte)
  /-- `PCM_END0`: PCM parameter 0x3 (R204) -/
  | pcmEnd0 (sel : Nibble) (data : Byte)
  /-- `PCM_END1`: PCM parameter 0x4 (R205) -/
  | pcmEnd1 (sel : Nibble) (data : Byte)
  /-- `PCM_END2`: PCM parameter 0x5 (R206) -/
  | pcmEnd2 (sel : Nibble) (data : Byte)
  /-- `PCM_LOOP0`: PCM parameter 0x6 (R207) -/
  | pcmLoop0 (sel : Nibble) (data : Byte)
  /-- `PCM_LOOP1`: PCM parameter 0x7 (R208) -/
  | pcmLoop1 (sel : Nibble) (data : Byte)
  /-- `PCM_LOOP2`: PCM parameter 0x8 (R209) -/
  | pcmLoop2 (sel : Nibble) (data : Byte)
  /-- `PCM_FORMAT`: PCM parameter 0x9 (R210) -/
  | pcmFormat (sel : Nibble) (data : Byte)
  /-- `PCM_RESERVED`: PCM parameters 0xA..0xF (R200) -/
  | pcmReserved (r : Nibble) (sel : Nibble) (data : Byte)
  /-- `GRP_SYNC`: timer sub-addresses 0x00..0x0F (R211) -/
  | grpSync (sel : Nibble) (data : Byte)
  /-- `TIM_A_HI`: timer sub-address 0x10 (R214) -/
  | timAHi (data : Byte)
  /-- `TIM_A_LO`: timer sub-address 0x11 (R218) -/
  | timALo (data : Byte)
  /-- `TIM_B`: timer sub-address 0x12 (R219) -/
  | timB (data : Byte)
  /-- `TIM_CTRL`: timer sub-address 0x13 (R213) -/
  | timCtrl (data : Byte)
  /-- `EXT_ADDR0`: timer sub-address 0x14 (R215) -/
  | extAddr0 (data : Byte)
  /-- `EXT_ADDR1`: timer sub-address 0x15 (R220) -/
  | extAddr1 (data : Byte)
  /-- `EXT_ADDR2`: timer sub-address 0x16 (R221) -/
  | extAddr2 (data : Byte)
  /-- `EXT_DATA`: timer sub-address 0x17 (R216) -/
  | extData (data : Byte)
  /-- `TIM_RESERVED`: timer sub-addresses 0x18..0xFF (R222) -/
  | timReserved (sub : Byte) (data : Byte)
  /-- `READ_STATUS0`: read of port 0 (R150) -/
  | readStatus0
  /-- `READ_STATUS1`: read of port 1 (R151) -/
  | readStatus1
  /-- `READ_EXTDATA`: read of port 2 (R152) -/
  | readExtdata
  /-- `READ_UNDOC`: read of any other port (R154) -/
  | readUndoc (port : Port)
  /-- `HOST_UPDATE` (R450) -/
  | hostUpdate (n : Nat)
  /-- `HOST_RESET` (R540) -/
  | hostReset
  /-- `HOST_START` (R541) -/
  | hostStart (clock : PosFrac)
  /-- `HOST_TICK_A` (R503) -/
  | hostTickA
  /-- `HOST_TICK_B` (R503) -/
  | hostTickB
  /-- `HOST_ALLOC_ROM` (R463) -/
  | hostAllocRom (size : Nat)
  /-- `HOST_WRITE_ROM` (R464) -/
  | hostWriteRom (offset : Nat) (bytes : List Byte)
  /-- `HOST_MUTE` (R462) -/
  | hostMute (mask : BitVec 12)
  /-- `ALG0_0` (R350) -/
  | alg0_0
  /-- `ALG0_1` (R351) -/
  | alg0_1
  /-- `ALG0_2` (R352) -/
  | alg0_2
  /-- `ALG0_3` (R353) -/
  | alg0_3
  /-- `ALG0_4` (R354) -/
  | alg0_4
  /-- `ALG0_5` (R355) -/
  | alg0_5
  /-- `ALG0_6` (R356) -/
  | alg0_6
  /-- `ALG0_7` (R357) -/
  | alg0_7
  /-- `ALG0_8` (R358) -/
  | alg0_8
  /-- `ALG0_9` (R359) -/
  | alg0_9
  /-- `ALG0_10` (R360) -/
  | alg0_10
  /-- `ALG0_11` (R361) -/
  | alg0_11
  /-- `ALG0_12` (R362) -/
  | alg0_12
  /-- `ALG0_13` (R363) -/
  | alg0_13
  /-- `ALG0_14` (R364) -/
  | alg0_14
  /-- `ALG0_15` (R365) -/
  | alg0_15
  /-- `ALG1_0` (R366); `hi` is `algorithm[3:2]`, which the row does not look at -/
  | alg1_0 (hi : BitVec 2)
  /-- `ALG1_1` (R367); `hi` is `algorithm[3:2]`, which the row does not look at -/
  | alg1_1 (hi : BitVec 2)
  /-- `ALG1_2` (R368); `hi` is `algorithm[3:2]`, which the row does not look at -/
  | alg1_2 (hi : BitVec 2)
  /-- `ALG1_3` (R369); `hi` is `algorithm[3:2]`, which the row does not look at -/
  | alg1_3 (hi : BitVec 2)
  /-- `ALG2_0` (R371); `hi` is `algorithm[3]`, which the row does not look at -/
  | alg2_0 (hi : BitVec 1)
  /-- `ALG2_1` (R372); `hi` is `algorithm[3]`, which the row does not look at -/
  | alg2_1 (hi : BitVec 1)
  /-- `ALG2_2` (R373); `hi` is `algorithm[3]`, which the row does not look at -/
  | alg2_2 (hi : BitVec 1)
  /-- `ALG2_3` (R374); `hi` is `algorithm[3]`, which the row does not look at -/
  | alg2_3 (hi : BitVec 1)
  /-- `ALG2_4` (R375); `hi` is `algorithm[3]`, which the row does not look at -/
  | alg2_4 (hi : BitVec 1)
  /-- `ALG2_5` (R376); `hi` is `algorithm[3]`, which the row does not look at -/
  | alg2_5 (hi : BitVec 1)
  /-- `ALG2_6` (R377); `hi` is `algorithm[3]`, which the row does not look at -/
  | alg2_6 (hi : BitVec 1)
  /-- `ALG2_7` (R378); `hi` is `algorithm[3]`, which the row does not look at -/
  | alg2_7 (hi : BitVec 1)
  /-- `SYNC3` (R380); `alg` is the algorithm field, which the row does not look at -/
  | sync3 (alg : BitVec 4)
  deriving DecidableEq, Repr

end Sys2Proof
end

