-- ==== Sys2Proof/WellFormed.lean ====
section
/-! DEFINITION. Which instructions are words of their row (spec/30_encoding.md R106, R108, R109, R110, R114;
spec/opcode_table.json). A term that is not well-formed names a word that the table gives to another row. -/

namespace Sys2Proof

/-- The selector nibble is one that `fm_tab` and `pcm_tab` do not map to -1: `n[1:0] ≠ 3` (R106, R108). -/
def selectorValid (sel : Nibble) : Bool := sel.toNat % 4 != 3

/-- The instruction's operands are those of its row. -/
def Instr.wf : Instr → Bool
  | .portLatchFm0 _ => true
  | .portLatchFm1 _ => true
  | .portLatchFm2 _ => true
  | .portLatchFm3 _ => true
  | .portLatchPcm _ => true
  | .portLatchTim _ => true
  | .portUnusedA _ => true
  | .portUnusedB _ => true
  | .portUnusedE _ => true
  | .portUnusedF _ => true
  | .fmInvalidSel _ _ sel _ => !selectorValid sel
  | .fmKey _ sel _ => selectorValid sel
  | .fmLfofreq _ sel _ => selectorValid sel
  | .fmLfowave _ sel _ => selectorValid sel
  | .fmMuldt _ sel _ => selectorValid sel
  | .fmTl _ sel _ => selectorValid sel
  | .fmAr _ sel _ => selectorValid sel
  | .fmD1r _ sel _ => selectorValid sel
  | .fmD2r _ sel _ => selectorValid sel
  | .fmRrd1l _ sel _ => selectorValid sel
  | .fmFnslo _ sel _ => selectorValid sel
  | .fmFnshi _ sel _ => selectorValid sel
  | .fmWave _ sel _ => selectorValid sel
  | .fmAlg _ sel _ => selectorValid sel
  | .fmCh01 _ sel _ => selectorValid sel
  | .fmCh23 _ sel _ => selectorValid sel
  | .fmReserved _ sel _ => selectorValid sel
  | .pcmInvalidSel _ sel _ => !selectorValid sel
  | .pcmStart0 sel _ => selectorValid sel
  | .pcmStart1 sel _ => selectorValid sel
  | .pcmStart2 sel _ => selectorValid sel
  | .pcmEnd0 sel _ => selectorValid sel
  | .pcmEnd1 sel _ => selectorValid sel
  | .pcmEnd2 sel _ => selectorValid sel
  | .pcmLoop0 sel _ => selectorValid sel
  | .pcmLoop1 sel _ => selectorValid sel
  | .pcmLoop2 sel _ => selectorValid sel
  | .pcmFormat sel _ => selectorValid sel
  | .pcmReserved r sel _ => decide (10 ≤ r.toNat) && selectorValid sel
  | .grpSync _ _ => true
  | .timAHi _ => true
  | .timALo _ => true
  | .timB _ => true
  | .timCtrl _ => true
  | .extAddr0 _ => true
  | .extAddr1 _ => true
  | .extAddr2 _ => true
  | .extData _ => true
  | .timReserved sub _ => decide (0x18 ≤ sub.toNat)
  | .readStatus0 => true
  | .readStatus1 => true
  | .readExtdata => true
  | .readUndoc port => decide (3 ≤ port.toNat)
  | .hostUpdate _ => true
  | .hostReset => true
  | .hostStart _ => true
  | .hostTickA => true
  | .hostTickB => true
  | .hostAllocRom _ => true
  | .hostWriteRom _ _ => true
  | .hostMute _ => true
  | .alg0_0 => true
  | .alg0_1 => true
  | .alg0_2 => true
  | .alg0_3 => true
  | .alg0_4 => true
  | .alg0_5 => true
  | .alg0_6 => true
  | .alg0_7 => true
  | .alg0_8 => true
  | .alg0_9 => true
  | .alg0_10 => true
  | .alg0_11 => true
  | .alg0_12 => true
  | .alg0_13 => true
  | .alg0_14 => true
  | .alg0_15 => true
  | .alg1_0 _ => true
  | .alg1_1 _ => true
  | .alg1_2 _ => true
  | .alg1_3 _ => true
  | .alg2_0 _ => true
  | .alg2_1 _ => true
  | .alg2_2 _ => true
  | .alg2_3 _ => true
  | .alg2_4 _ => true
  | .alg2_5 _ => true
  | .alg2_6 _ => true
  | .alg2_7 _ => true
  | .sync3 _ => true

end Sys2Proof
end

