-- ==== Sys2Proof/Decode.lean ====
section
/-! DEFINITION. Decoding and encoding of the register interface (spec/30_encoding.md). The formats are `PW`
(an effective operation word, R101), `PR` (a read of a port, R103), `AL` (a rendering dispatch word, R105) and
`HO` (a host operation, which has no encoding, R104). Decoding a packet is total: no encoding traps (R113).
Decoding a string of bytes rejects, by name, a string of the wrong length and one with a bit above its format's
width. -/

namespace Sys2Proof

/-- An operation in its format's own width. -/
inductive Packet
  /-- `PW`: the word `{port, sub, data}` (R101) -/
  | pw (w : OpWord)
  /-- `PR`: the port read (R103) -/
  | pr (port : Port)
  /-- `AL`: the word `{sync, algorithm}` (R105) -/
  | al (a : BitVec 6)
  /-- `HO`: a host operation (R104) -/
  | ho (c : HostCall)
  deriving DecidableEq, Repr

/-- The formats that have bits. -/
inductive Format
  | pw
  | pr
  | al
  deriving DecidableEq, Repr

/-- Why a string of bytes is no operation. -/
inductive DecodeError
  /-- the string is not as long as its format -/
  | wrongLength
  /-- a bit above the format's width is set -/
  | strayBit
  deriving DecidableEq, Repr

/-- What a port number is for (R102). -/
inductive PortRole
  | fmLatch (bank : BitVec 2)
  | fmData (bank : BitVec 2)
  | pcmLatch
  | pcmData
  | timLatch
  | timData
  | unusedA
  | unusedB
  | unusedE
  | unusedF
  deriving DecidableEq, Repr

/-- The role of each port: the table of R102. -/
def portRole (p : Port) : PortRole :=
  match p.toNat with
  | 0x0 => .fmLatch 0#2
  | 0x1 => .fmData 0#2
  | 0x2 => .fmLatch 1#2
  | 0x3 => .fmData 1#2
  | 0x4 => .fmLatch 2#2
  | 0x5 => .fmData 2#2
  | 0x6 => .fmLatch 3#2
  | 0x7 => .fmData 3#2
  | 0x8 => .pcmLatch
  | 0x9 => .pcmData
  | 0xA => .unusedA
  | 0xB => .unusedB
  | 0xC => .timLatch
  | 0xD => .timData
  | 0xE => .unusedE
  | _ => .unusedF

/-- The port of each role, written from R102: port `2*bank` latches and port `2*bank + 1` is the data port. -/
def PortRole.port : PortRole → Port
  | .fmLatch bank => 0#1 ++ bank ++ 0#1
  | .fmData bank => 0#1 ++ bank ++ 1#1
  | .pcmLatch => 0x8#4
  | .pcmData => 0x9#4
  | .timLatch => 0xC#4
  | .timData => 0xD#4
  | .unusedA => 0xA#4
  | .unusedB => 0xB#4
  | .unusedE => 0xE#4
  | .unusedF => 0xF#4

/-- The word `{port, r, n, data}` (R101). -/
def joinWord (port : Port) (r n : Nibble) (data : Byte) : OpWord := port ++ r ++ n ++ data

/-- `W[19:16]`, the port (R101). -/
def wordPort (w : OpWord) : Port := w.extractLsb' 16 4

/-- `W[15:12]`, the parameter nibble (R101). -/
def wordParam (w : OpWord) : Nibble := w.extractLsb' 12 4

/-- `W[11:8]`, the selector nibble (R101). -/
def wordSel (w : OpWord) : Nibble := w.extractLsb' 8 4

/-- `W[7:0]`, the data byte (R101). -/
def wordData (w : OpWord) : Byte := w.extractLsb' 0 8

/-- `n[1:0] = 3`: `fm_tab` and `pcm_tab` map the selector to -1 (R106, R108). -/
def selectorRejected (n : Nibble) : Bool := n.toNat % 4 == 3

/-- The write of an even FM port (R102, R140). -/
def decodeFmLatch (bank : BitVec 2) (d : Byte) : Instr :=
  match bank.toNat with
  | 0 => .portLatchFm0 d
  | 1 => .portLatchFm1 d
  | 2 => .portLatchFm2 d
  | _ => .portLatchFm3 d

/-- The write of an odd FM port; the invalid selector has priority (R107, R114). -/
def decodeFm (bank : BitVec 2) (r n : Nibble) (d : Byte) : Instr :=
  if selectorRejected n then .fmInvalidSel bank r n d
  else match r.toNat with
  | 0x0 => .fmKey bank n d
  | 0x1 => .fmLfofreq bank n d
  | 0x2 => .fmLfowave bank n d
  | 0x3 => .fmMuldt bank n d
  | 0x4 => .fmTl bank n d
  | 0x5 => .fmAr bank n d
  | 0x6 => .fmD1r bank n d
  | 0x7 => .fmD2r bank n d
  | 0x8 => .fmRrd1l bank n d
  | 0x9 => .fmFnslo bank n d
  | 0xA => .fmFnshi bank n d
  | 0xB => .fmWave bank n d
  | 0xC => .fmAlg bank n d
  | 0xD => .fmCh01 bank n d
  | 0xE => .fmCh23 bank n d
  | _ => .fmReserved bank n d

/-- The write of port 9; the invalid selector has priority (R109, R114). -/
def decodePcm (r n : Nibble) (d : Byte) : Instr :=
  if selectorRejected n then .pcmInvalidSel r n d
  else match r.toNat with
  | 0x0 => .pcmStart0 n d
  | 0x1 => .pcmStart1 n d
  | 0x2 => .pcmStart2 n d
  | 0x3 => .pcmEnd0 n d
  | 0x4 => .pcmEnd1 n d
  | 0x5 => .pcmEnd2 n d
  | 0x6 => .pcmLoop0 n d
  | 0x7 => .pcmLoop1 n d
  | 0x8 => .pcmLoop2 n d
  | 0x9 => .pcmFormat n d
  | _ => .pcmReserved r n d

/-- The write of port 0xD: the whole sub-address selects (R110). -/
def decodeTimer (r n : Nibble) (d : Byte) : Instr :=
  if r.toNat = 0 then .grpSync n d
  else match (r ++ n).toNat with
  | 0x10 => .timAHi d
  | 0x11 => .timALo d
  | 0x12 => .timB d
  | 0x13 => .timCtrl d
  | 0x14 => .extAddr0 d
  | 0x15 => .extAddr1 d
  | 0x16 => .extAddr2 d
  | 0x17 => .extData d
  | _ => .timReserved (r ++ n) d

/-- The instruction of an effective operation word (R101, R102, R114). -/
def decodeWord (w : OpWord) : Instr :=
  match portRole (wordPort w) with
  | .fmLatch bank => decodeFmLatch bank (wordData w)
  | .fmData bank => decodeFm bank (wordParam w) (wordSel w) (wordData w)
  | .pcmLatch => .portLatchPcm (wordData w)
  | .pcmData => decodePcm (wordParam w) (wordSel w) (wordData w)
  | .timLatch => .portLatchTim (wordData w)
  | .timData => decodeTimer (wordParam w) (wordSel w) (wordData w)
  | .unusedA => .portUnusedA (wordData w)
  | .unusedB => .portUnusedB (wordData w)
  | .unusedE => .portUnusedE (wordData w)
  | .unusedF => .portUnusedF (wordData w)

/-- The instruction of a port read (R103, R154). -/
def decodeRead (port : Port) : Instr :=
  match port.toNat with
  | 0 => .readStatus0
  | 1 => .readStatus1
  | 2 => .readExtdata
  | _ => .readUndoc port

/-- The sync-0 row of an algorithm number: all four bits (R105, R330). -/
def decodeAlg0 (alg : BitVec 4) : Instr :=
  match alg.toNat with
  | 0 => .alg0_0
  | 1 => .alg0_1
  | 2 => .alg0_2
  | 3 => .alg0_3
  | 4 => .alg0_4
  | 5 => .alg0_5
  | 6 => .alg0_6
  | 7 => .alg0_7
  | 8 => .alg0_8
  | 9 => .alg0_9
  | 10 => .alg0_10
  | 11 => .alg0_11
  | 12 => .alg0_12
  | 13 => .alg0_13
  | 14 => .alg0_14
  | _ => .alg0_15

/-- The sync-1 row of an algorithm number: `algorithm & 3` (R105, R330). -/
def decodeAlg1 (alg : BitVec 4) : Instr :=
  match alg.toNat % 4 with
  | 0 => .alg1_0 (alg.extractLsb' 2 2)
  | 1 => .alg1_1 (alg.extractLsb' 2 2)
  | 2 => .alg1_2 (alg.extractLsb' 2 2)
  | _ => .alg1_3 (alg.extractLsb' 2 2)

/-- The sync-2 row of an algorithm number: `algorithm & 7` (R105, R330). -/
def decodeAlg2 (alg : BitVec 4) : Instr :=
  match alg.toNat % 8 with
  | 0 => .alg2_0 (alg.extractLsb' 3 1)
  | 1 => .alg2_1 (alg.extractLsb' 3 1)
  | 2 => .alg2_2 (alg.extractLsb' 3 1)
  | 3 => .alg2_3 (alg.extractLsb' 3 1)
  | 4 => .alg2_4 (alg.extractLsb' 3 1)
  | 5 => .alg2_5 (alg.extractLsb' 3 1)
  | 6 => .alg2_6 (alg.extractLsb' 3 1)
  | _ => .alg2_7 (alg.extractLsb' 3 1)

/-- The row of a rendering dispatch word `{sync, algorithm}` (R105). -/
def decodeDispatch (a : BitVec 6) : Instr :=
  match (a.extractLsb' 4 2).toNat with
  | 0 => decodeAlg0 (a.extractLsb' 0 4)
  | 1 => decodeAlg1 (a.extractLsb' 0 4)
  | 2 => decodeAlg2 (a.extractLsb' 0 4)
  | _ => .sync3 (a.extractLsb' 0 4)

/-- The row of a host operation (R104). -/
def decodeHost : HostCall → Instr
  | .update n => .hostUpdate n
  | .reset => .hostReset
  | .start clock => .hostStart clock
  | .tickA => .hostTickA
  | .tickB => .hostTickB
  | .allocRom size => .hostAllocRom size
  | .writeRom offset bytes => .hostWriteRom offset bytes
  | .setMute mask => .hostMute mask

/-- The instruction of a packet: total, since no encoding traps (R113). -/
def decode : Packet → Instr
  | .pw w => decodeWord w
  | .pr port => decodeRead port
  | .al a => decodeDispatch a
  | .ho c => decodeHost c

/-- The bits of a format (R100, R101, R103, R105). -/
def Format.width : Format → Nat
  | .pw => 20
  | .pr => 4
  | .al => 6

/-- The bytes of a format: its bits, lowest byte first, rounded up to whole bytes. -/
def Format.size : Format → Nat
  | .pw => 3
  | .pr => 1
  | .al => 1

/-- The number a string of bytes spells, lowest byte first. -/
def wordOfBytes : List Byte → Nat
  | [] => 0
  | b :: bs => b.toNat + 256 * wordOfBytes bs

/-- The `n` lowest bytes of a number, lowest first. -/
def bytesOfWord : Nat → Nat → List Byte
  | 0, _ => []
  | n + 1, w => BitVec.ofNat 8 w :: bytesOfWord n (w / 256)

/-- The packet of a number in a format. -/
def Format.packet (f : Format) (w : Nat) : Packet :=
  match f with
  | .pw => .pw (BitVec.ofNat 20 w)
  | .pr => .pr (BitVec.ofNat 4 w)
  | .al => .al (BitVec.ofNat 6 w)

/-- The instruction of a string of bytes in a format, or why there is none. -/
def decodeBytes (f : Format) (bs : List Byte) : Except DecodeError Instr :=
  if bs.length ≠ f.size then .error .wrongLength
  else if wordOfBytes bs < 2 ^ f.width then .ok (decode (f.packet (wordOfBytes bs)))
  else .error .strayBit

/-- The format of a row of the opcode table that gives `nbits` bits. A row of 8 bits may be a `PR` or an `AL`
row; the number alone does not say which, and it is read as an `AL` row (DESIGN CHOICE; entry 6). -/
def formatOfBits (nbits : Nat) : Option Format :=
  match nbits with
  | 4 => some .pr
  | 6 => some .al
  | 8 => some .al
  | 20 => some .pw
  | 24 => some .pw
  | _ => none

/-- The instruction the decoder reads from an opcode-table word of `nbits` bits. -/
def decodeTableWord (nbits w : Nat) : Option Instr :=
  match formatOfBits nbits with
  | none => none
  | some f =>
    if w < 2 ^ nbits then (decodeBytes f (bytesOfWord f.size w)).toOption else none

/-- The write word of a latch or unused port. These rows do not read the sub-address; the encoder writes 0
(DESIGN CHOICE; entry 15). -/
def latchWord (role : PortRole) (d : Byte) : Packet := .pw (joinWord role.port 0#4 0#4 d)

/-- The write word of FM parameter `r` (R107). -/
def fmWord (bank : BitVec 2) (r n : Nibble) (d : Byte) : Packet := .pw (joinWord (PortRole.fmData bank).port r n d)

/-- The write word of PCM parameter `r` (R109). -/
def pcmWord (r n : Nibble) (d : Byte) : Packet := .pw (joinWord PortRole.pcmData.port r n d)

/-- The write word of timer sub-address `{r, n}` (R110). -/
def timWord (r n : Nibble) (d : Byte) : Packet := .pw (joinWord PortRole.timData.port r n d)

/-- The word of each instruction, written from the opcode table and R101 to R105. -/
def encode : Instr → Packet
  | .portLatchFm0 d => latchWord (.fmLatch 0#2) d
  | .portLatchFm1 d => latchWord (.fmLatch 1#2) d
  | .portLatchFm2 d => latchWord (.fmLatch 2#2) d
  | .portLatchFm3 d => latchWord (.fmLatch 3#2) d
  | .portLatchPcm d => latchWord .pcmLatch d
  | .portLatchTim d => latchWord .timLatch d
  | .portUnusedA d => latchWord .unusedA d
  | .portUnusedB d => latchWord .unusedB d
  | .portUnusedE d => latchWord .unusedE d
  | .portUnusedF d => latchWord .unusedF d
  | .fmInvalidSel bank r n d => fmWord bank r n d
  | .fmKey bank n d => fmWord bank 0x0#4 n d
  | .fmLfofreq bank n d => fmWord bank 0x1#4 n d
  | .fmLfowave bank n d => fmWord bank 0x2#4 n d
  | .fmMuldt bank n d => fmWord bank 0x3#4 n d
  | .fmTl bank n d => fmWord bank 0x4#4 n d
  | .fmAr bank n d => fmWord bank 0x5#4 n d
  | .fmD1r bank n d => fmWord bank 0x6#4 n d
  | .fmD2r bank n d => fmWord bank 0x7#4 n d
  | .fmRrd1l bank n d => fmWord bank 0x8#4 n d
  | .fmFnslo bank n d => fmWord bank 0x9#4 n d
  | .fmFnshi bank n d => fmWord bank 0xA#4 n d
  | .fmWave bank n d => fmWord bank 0xB#4 n d
  | .fmAlg bank n d => fmWord bank 0xC#4 n d
  | .fmCh01 bank n d => fmWord bank 0xD#4 n d
  | .fmCh23 bank n d => fmWord bank 0xE#4 n d
  | .fmReserved bank n d => fmWord bank 0xF#4 n d
  | .pcmInvalidSel r n d => pcmWord r n d
  | .pcmStart0 n d => pcmWord 0x0#4 n d
  | .pcmStart1 n d => pcmWord 0x1#4 n d
  | .pcmStart2 n d => pcmWord 0x2#4 n d
  | .pcmEnd0 n d => pcmWord 0x3#4 n d
  | .pcmEnd1 n d => pcmWord 0x4#4 n d
  | .pcmEnd2 n d => pcmWord 0x5#4 n d
  | .pcmLoop0 n d => pcmWord 0x6#4 n d
  | .pcmLoop1 n d => pcmWord 0x7#4 n d
  | .pcmLoop2 n d => pcmWord 0x8#4 n d
  | .pcmFormat n d => pcmWord 0x9#4 n d
  | .pcmReserved r n d => pcmWord r n d
  | .grpSync n d => timWord 0x0#4 n d
  | .timAHi d => timWord 0x1#4 0x0#4 d
  | .timALo d => timWord 0x1#4 0x1#4 d
  | .timB d => timWord 0x1#4 0x2#4 d
  | .timCtrl d => timWord 0x1#4 0x3#4 d
  | .extAddr0 d => timWord 0x1#4 0x4#4 d
  | .extAddr1 d => timWord 0x1#4 0x5#4 d
  | .extAddr2 d => timWord 0x1#4 0x6#4 d
  | .extData d => timWord 0x1#4 0x7#4 d
  | .timReserved sub d => timWord (sub.extractLsb' 4 4) (sub.extractLsb' 0 4) d
  | .readStatus0 => .pr 0#4
  | .readStatus1 => .pr 1#4
  | .readExtdata => .pr 2#4
  | .readUndoc port => .pr port
  | .hostUpdate n => .ho (.update n)
  | .hostReset => .ho .reset
  | .hostStart clock => .ho (.start clock)
  | .hostTickA => .ho .tickA
  | .hostTickB => .ho .tickB
  | .hostAllocRom size => .ho (.allocRom size)
  | .hostWriteRom offset bytes => .ho (.writeRom offset bytes)
  | .hostMute mask => .ho (.setMute mask)
  | .alg0_0 => .al (0#2 ++ 0#4)
  | .alg0_1 => .al (0#2 ++ 1#4)
  | .alg0_2 => .al (0#2 ++ 2#4)
  | .alg0_3 => .al (0#2 ++ 3#4)
  | .alg0_4 => .al (0#2 ++ 4#4)
  | .alg0_5 => .al (0#2 ++ 5#4)
  | .alg0_6 => .al (0#2 ++ 6#4)
  | .alg0_7 => .al (0#2 ++ 7#4)
  | .alg0_8 => .al (0#2 ++ 8#4)
  | .alg0_9 => .al (0#2 ++ 9#4)
  | .alg0_10 => .al (0#2 ++ 10#4)
  | .alg0_11 => .al (0#2 ++ 11#4)
  | .alg0_12 => .al (0#2 ++ 12#4)
  | .alg0_13 => .al (0#2 ++ 13#4)
  | .alg0_14 => .al (0#2 ++ 14#4)
  | .alg0_15 => .al (0#2 ++ 15#4)
  | .alg1_0 hi => .al (1#2 ++ hi ++ 0#2)
  | .alg1_1 hi => .al (1#2 ++ hi ++ 1#2)
  | .alg1_2 hi => .al (1#2 ++ hi ++ 2#2)
  | .alg1_3 hi => .al (1#2 ++ hi ++ 3#2)
  | .alg2_0 hi => .al (2#2 ++ hi ++ 0#3)
  | .alg2_1 hi => .al (2#2 ++ hi ++ 1#3)
  | .alg2_2 hi => .al (2#2 ++ hi ++ 2#3)
  | .alg2_3 hi => .al (2#2 ++ hi ++ 3#3)
  | .alg2_4 hi => .al (2#2 ++ hi ++ 4#3)
  | .alg2_5 hi => .al (2#2 ++ hi ++ 5#3)
  | .alg2_6 hi => .al (2#2 ++ hi ++ 6#3)
  | .alg2_7 hi => .al (2#2 ++ hi ++ 7#3)
  | .sync3 alg => .al (3#2 ++ alg)

/-- The number of a packet that has bits. -/
def Packet.word : Packet → Option Nat
  | .pw w => some w.toNat
  | .pr port => some port.toNat
  | .al a => some a.toNat
  | .ho _ => none

end Sys2Proof
end

