-- ==== Sys2Proof/Machine/State.lean ====
section
/-! DEFINITION. The state of the core, as plain data: every piece of state that spec/10_state.md names, the
configuration record, and the model's own fields for the host's side (the operations it has queued, what the core
has returned and emitted). -/

namespace Sys2Proof.Machine

open Sys2Proof

/-- Envelope states (R35, R238). -/
inductive EnvState
  | attack
  | decay1
  | decay2
  | release
  deriving DecidableEq, Repr

/-- `loop_direction`: `+1` or `−1` (R35). -/
inductive Direction
  | forward
  | reverse
  deriving DecidableEq, Repr

/-- The PCM sample width, a field of one bit that encodes 8 or 12 (R33, R210). -/
inductive SampleBits
  | eight
  | twelve
  deriving DecidableEq, Repr

/-- One tone generator: the register-backed fields of R33, then the dynamic state of R35. -/
structure Slot where
  waveform : BitVec 3
  algorithm : BitVec 4
  feedback : BitVec 3
  accon : Bool
  block : BitVec 4
  fns : BitVec 12
  fnsHi : Byte
  multiple : BitVec 4
  detune : BitVec 3
  tl : BitVec 7
  keyscale : BitVec 2
  ar : BitVec 5
  d1r : BitVec 5
  d2r : BitVec 5
  rr : BitVec 4
  d1l : BitVec 4
  lfoFreq : Byte
  lfowave : BitVec 2
  pms : BitVec 3
  ams : BitVec 2
  ch0Level : BitVec 4
  ch1Level : BitVec 4
  ch2Level : BitVec 4
  ch3Level : BitVec 4
  startaddr : Addr
  endaddr : Addr
  loopaddr : Addr
  altloop : Bool
  bits : SampleBits
  fs : BitVec 2
  srcnote : BitVec 2
  srcb : BitVec 3
  active : Bool
  /-- 24.16 fixed point, `0 .. 255·2^16` (R35, R36). -/
  volume : Int
  envState : EnvState
  envStepAttack : Nat
  envStepDecay1 : Nat
  envStepDecay2 : Nat
  envStepRelease : Nat
  stepptr : BitVec 64
  step : BitVec 32
  /-- A signed 64-bit feedback word (R35, R302). -/
  fbMod0 : BitVec 64
  /-- A signed 64-bit feedback word (R35, R304). -/
  fbMod1 : BitVec 64
  lfoPhase : BitVec 32
  lfoStep : BitVec 32
  lfoAmplitude : Nat
  /-- A binary64 value, in units of 2^-53 (entry 12). -/
  lfoPhasemod : Nat
  loopDirection : Direction
  deriving DecidableEq, Repr

/-- The value 1.0 of `lfo_phasemod`. -/
abbrev phasemodOne : Nat := 9007199254740992

/-- A slot after reset (R540). -/
def Slot.reset : Slot where
  waveform := 0#3
  algorithm := 0#4
  feedback := 0#3
  accon := false
  block := 0#4
  fns := 0#12
  fnsHi := 0#8
  multiple := 0#4
  detune := 0#3
  tl := 0#7
  keyscale := 0#2
  ar := 0#5
  d1r := 0#5
  d2r := 0#5
  rr := 0#4
  d1l := 0#4
  lfoFreq := 0#8
  lfowave := 0#2
  pms := 0#3
  ams := 0#2
  ch0Level := 0#4
  ch1Level := 0#4
  ch2Level := 0#4
  ch3Level := 0#4
  startaddr := 0#23
  endaddr := 0#23
  loopaddr := 0#23
  altloop := false
  bits := .eight
  fs := 0#2
  srcnote := 0#2
  srcb := 0#3
  active := false
  volume := 0
  envState := .attack
  envStepAttack := 0
  envStepDecay1 := 0
  envStepDecay2 := 0
  envStepRelease := 0
  stepptr := 0#64
  step := 0#32
  fbMod0 := 0#64
  fbMod1 := 0#64
  lfoPhase := 0#32
  lfoStep := 0#32
  lfoAmplitude := 0
  lfoPhasemod := phasemodOne
  loopDirection := .forward

/-- A group: how its four slots combine (R38). -/
structure Group where
  sync : BitVec 2
  pfm : Bool
  muted : Bool
  deriving DecidableEq, Repr

/-- A group after `start` (R540, R541). -/
def Group.initial : Group := ⟨0#2, false, false⟩

/-- The PCM memory (R41, R82): its size and its bytes, as the list of the addresses below the size whose byte is not
the fill byte (`romFill`), in rising order. -/
structure Rom where
  size : Nat
  cells : List Host.Cell
  deriving DecidableEq, Repr

/-- The empty PCM memory of `start` (R541). -/
def Rom.empty : Rom := ⟨0, []⟩

/-- The four channels of one sample of a mix buffer: `buf[4*i + c]` for `c` in 0..3 (R40), signed 32 bits each
(R39). -/
structure Frame where
  ch0 : BitVec 32
  ch1 : BitVec 32
  ch2 : BitVec 32
  ch3 : BitVec 32
  deriving DecidableEq, Repr

/-- An all-zero frame (R450). -/
def Frame.zero : Frame := ⟨0#32, 0#32, 0#32, 0#32⟩

/-- The pair of a sync-1 group (R370). -/
inductive Pair
  | a
  | b
  deriving DecidableEq, Repr

/-- The position inside an `update` call (R31): the group being rendered and, in sync 1, the pair. The sample
position is the loop variable of the unit being rendered. -/
structure RenderPos where
  group : GroupIx
  pair : Pair
  deriving DecidableEq, Repr

/-- One operation of the host's queue: an entry point of R460, or the dispatch of one rendering unit, which
`update` performs inside its step (R105; entry 5). -/
inductive HostOp
  | write (port : Port) (data : Byte)
  | read (port : Port)
  | call (c : HostCall)
  | dispatch
  deriving DecidableEq, Repr

/-- What an operation returned to the host: nothing yet, the byte of a port read (R150..R154), or the two arrays of
an `update` (R450). -/
inductive Result
  | nothing
  | byte (v : Byte)
  | samples (left right : List (BitVec 32))
  deriving DecidableEq, Repr

/-- An output event (R216, R505). -/
inductive Event
  | extWrite (a : Addr) (d : Byte)
  | irqChanged (level : Bool)
  deriving DecidableEq, Repr

/-- The state of the machine. -/
structure State where
  /-- `slot[0..47]` (R30, R33, R35) -/
  slots : Vector Slot 48
  /-- `group[0..11]` (R38) -/
  groups : Vector Group 12
  /-- `regs[0..15]` (R39) -/
  regs : Vector Byte 16
  timerA : BitVec 10
  timerB : Byte
  /-- clock cycles (R212) -/
  timerAPeriod : Nat
  /-- clock cycles (R212) -/
  timerBPeriod : Nat
  enable : Byte
  status : BitVec 2
  irqstate : BitVec 2
  endStatus : BitVec 16
  busyFlag : Bool
  extAddress : Addr
  extRw : Bool
  extReadlatch : Byte
  /-- the direct mix buffer of the current `update` call (R40, R433) -/
  mixbuf : List Frame
  /-- the ACC mix buffer of the current `update` call (R40, R424) -/
  accbuf : List Frame
  /-- `ROM`, `ROM_SIZE` (R41) -/
  rom : Rom
  /-- the position inside an `update` call (R31) -/
  pos : RenderPos
  /-- the configuration record (R32) -/
  config : Config
  /-- the host's operations not yet served, oldest first (the model's own; entry 4) -/
  input : List HostOp
  /-- what the latest operation that returns something returned (the model's own; entry 7) -/
  result : Result
  /-- the output events so far, oldest first (the model's own; entry 7) -/
  events : List Event
  deriving DecidableEq, Repr

/-- Why the machine stops with a fault. -/
inductive Fault
  /-- `start` found no memory and produced no instance: the host error `StartFailed` (R502). Raised by HOST_START
  under `START_ALLOC_OK = false` only. Safe: it is the outcome the spec gives. -/
  | startFailed
  deriving DecidableEq, Repr

/-- Why the machine refuses an instruction. -/
inductive Refusal
  /-- An instruction without a meaning in this model, by its mnemonic. No arm of `exec` answers it. Safe. -/
  | notModelled (mnemonic : String)
  deriving DecidableEq, Repr

/-- The position between `update` calls (entry 5). -/
def RenderPos.idle : RenderPos := ⟨0, .a⟩

/-- The machine after `start(STD_CLOCK)`, which ends in `reset` (R540, R541), with nothing queued by the host. -/
def State.reset : State where
  slots := Vector.replicate 48 Slot.reset
  groups := Vector.replicate 12 Group.initial
  regs := Vector.replicate 16 0#8
  timerA := 0#10
  timerB := 0#8
  timerAPeriod := 393216
  timerBPeriod := 1572864
  enable := 0#8
  status := 0#2
  irqstate := 0#2
  endStatus := 0#16
  busyFlag := false
  extAddress := 0#23
  extRw := false
  extReadlatch := 0#8
  mixbuf := []
  accbuf := []
  rom := Rom.empty
  pos := RenderPos.idle
  config := Config.default
  input := []
  result := .nothing
  events := []

end Sys2Proof.Machine
end

