-- ==== Sys2Proof/Machine/Ops.lean ====
section
/-! DEFINITION. The named operations over the state: slots, groups, port registers, the PCM memory, the output events
and the IRQ level. The core has no exceptions (spec/60_exceptions.md R500) and saves no state when an interrupt is
pending (R507): the whole of an interrupt is the level of `State.irq`, so there is no exception entry and no return to
define here. -/

namespace Sys2Proof.Machine

open Sys2Proof

/-! ### Slots, groups, port registers -/

/-- `slot[i]` (R17). -/
def State.slot (s : State) (i : SlotIx) : Slot := s.slots[i]

/-- `slot[i] <- t`. -/
def State.setSlot (s : State) (i : SlotIx) (t : Slot) : State := { s with slots := s.slots.set i t }

/-- `slot[i]` changed by a function of its old contents. -/
def State.modSlot (s : State) (i : SlotIx) (f : Slot → Slot) : State := s.setSlot i (f (s.slot i))

/-- `group[g]` (R17). -/
def State.group (s : State) (g : GroupIx) : Group := s.groups[g]

/-- `group[g] <- x`. -/
def State.setGroup (s : State) (g : GroupIx) (x : Group) : State := { s with groups := s.groups.set g x }

/-- `regs[port]` (R39). -/
def State.reg (s : State) (port : Port) : Byte := s.regs[port.toFin]

/-- `regs[port] <- data` (R140). -/
def State.setReg (s : State) (port : Port) (data : Byte) : State := { s with regs := s.regs.set port.toFin data }

/-- The slot of a bank and a group: `s = 12 * bank + group` (R30). -/
def slotIx (bank : Bank) (g : GroupIx) : SlotIx := ⟨12 * bank.val + g.val, by omega⟩

/-- Bit `i` of a vector set to a value; the other bits stay. -/
def withBit {w : Nat} (v : BitVec w) (i : Nat) (b : Bool) : BitVec w :=
  if b then v ||| BitVec.ofNat w (2 ^ i) else v &&& ~~~(BitVec.ofNat w (2 ^ i))

/-! ### Arithmetic shift -/

/-- `a >> k`: the arithmetic right shift, `floor(a / 2^k)` (R14). -/
def sar (a : Int) (k : Nat) : Int := a >>> k

/-- `clamp(x, lo, hi)` (R14). -/
def clamp (x lo hi : Int) : Int := min (max x lo) hi

/-! ### The PCM memory -/

/-- What an unlisted address below the size reads as: the byte `alloc_rom` fills new memory with (R463, D54). -/
def romFill : Byte := 0xFF#8

/-- The largest PCM memory: 2^23 bytes (R9, R82). -/
def romLimit : Nat := 8388608

/-- The canonical form of the cells from an address on: rising addresses below the size, none of them holding the fill
byte. -/
def cellsWf (size lo : Nat) : List Host.Cell → Bool
  | [] => true
  | (a, b) :: rest => decide (lo ≤ a) && decide (a < size) && (b != romFill) && cellsWf size (a + 1) rest

/-- The PCM memory is in canonical form and no larger than 2^23 bytes. -/
def Rom.wf (m : Rom) : Bool := decide (m.size ≤ romLimit) && cellsWf m.size 0 m.cells

/-- The byte the list gives an address. -/
def cellAt : List Host.Cell → Nat → Byte
  | [], _ => romFill
  | (a', b') :: rest, a => if a = a' then b' else cellAt rest a

/-- The list with one byte written, in canonical form. -/
def cellPut : List Host.Cell → Nat → Byte → List Host.Cell
  | [], a, b => if b = romFill then [] else [(a, b)]
  | (a', b') :: rest, a, b =>
    if a < a' then (if b = romFill then (a', b') :: rest else (a, b) :: (a', b') :: rest)
    else if a = a' then (if b = romFill then rest else (a, b) :: rest)
    else (a', b') :: cellPut rest a b

/-- `ROM[a]` where `a < ROM_SIZE` (R82). -/
def Rom.byteAt (m : Rom) (a : Nat) : Byte := cellAt m.cells a

/-- `MemRead(a, 1)`: the address modulo 2^23, the byte below `ROM_SIZE`, else 0 (R83). -/
def memRead (m : Rom) (a : Int) : Byte :=
  let a' := (a % 8388608).toNat
  if a' < m.size then m.byteAt a' else 0#8

/-- `if a < ROM_SIZE then ROM[a] <- b` (R464). -/
def Rom.write (m : Rom) (a : Nat) (b : Byte) : Rom :=
  if a < m.size then { m with cells := cellPut m.cells a b } else m

/-- `write_rom(offset, bytes)` on the memory, lowest byte first (R464). -/
def Rom.writeBytes (m : Rom) (offset : Nat) : List Byte → Rom
  | [] => m
  | b :: bs => (m.write offset b).writeBytes (offset + 1) bs

/-- `alloc_rom(size)` on the memory: bytes below both sizes stay, every other byte of the new memory is the fill byte,
and a size above 2^23 is clamped (R463). -/
def Rom.alloc (m : Rom) (size : Nat) : Rom :=
  let size' := min size romLimit
  { size := size', cells := m.cells.filter fun c => decide (c.1 < min m.size size') }

/-! ### Outputs -/

/-- The IRQ output level: `irq = (irqstate ≠ 0)` (R42, R505). -/
def State.irq (s : State) : Bool := s.irqstate != 0#2

/-- An output event. -/
def State.emit (s : State) (e : Event) : State := { s with events := s.events ++ [e] }

/-- `IrqChanged(irq)` after a step in which the level changed (R505). -/
def State.noteIrq (s : State) (before : Bool) : State := if s.irq = before then s else s.emit (.irqChanged s.irq)

/-- A byte returned to the host (R103). -/
def State.returnByte (s : State) (v : Byte) : State := { s with result := .byte v }

/-- `ext_readlatch <- MemRead(ext_address, 1)` (R217). -/
def State.reloadLatch (s : State) : State := { s with extReadlatch := memRead s.rom s.extAddress.toNat }

/-- `ext_address <- (ext_address + 1) mod 2^23`, then the latch is reloaded (R152, R216). -/
def State.advanceExt (s : State) : State := { s with extAddress := s.extAddress + 1#23 }.reloadLatch

end Sys2Proof.Machine
end

