-- ==== Sys2Proof/Machine/Flags.lean ====
section
/-! DEFINITION. The flags of the core (spec/10_state.md R43): the timer status and IRQ bits, the PCM end markers, and the
bytes that show them on the read ports. -/

namespace Sys2Proof.Machine

open Sys2Proof

/-- `status[k] <- 1; if enable[2 + k] = 1 then irqstate[k] <- 1; irq output re-evaluated` (R503). -/
def State.timerTick (s : State) (k : Nat) : State :=
  { s with
    status := withBit s.status k true
    irqstate := if s.enable.getLsbD (2 + k) then withBit s.irqstate k true else s.irqstate }.noteIrq s.irq

/-- `status[k] <- 0; irqstate[k] <- 0` where the data bit `4 + k` is set (R213). -/
def State.timerReset (s : State) (k : Nat) (data : Byte) : State :=
  if data.getLsbD (4 + k) then
    { s with status := withBit s.status k false, irqstate := withBit s.irqstate k false }
  else s

/-- `if s mod 4 = 0 then end_status[s >> 2] <- b` (R171, R398). -/
def State.setEndStatus (s : State) (i : SlotIx) (b : Bool) : State :=
  if i.val % 4 = 0 then { s with endStatus := withBit s.endStatus (i.val / 4) b } else s

/-- `busy_flag<<7 | (end_status & 0xF)<<3 | status[1]<<1 | status[0]`; bit 2 reads 0 (R150). -/
def State.statusByte0 (s : State) : Byte := BitVec.ofBool s.busyFlag ++ s.endStatus.extractLsb' 0 4 ++ 0#1 ++ s.status

/-- `(end_status >> 4) & 0xFF` (R151). -/
def State.statusByte1 (s : State) : Byte := s.endStatus.extractLsb' 4 8

/-- `timerA_period = 384 * (1024 − timerA)` clock cycles (R212). -/
def timerAPeriodOf (timerA : BitVec 10) : Nat := 384 * (1024 - timerA.toNat)

/-- `timerB_period = 384 * 16 * (256 − timerB)` clock cycles (R212). -/
def timerBPeriodOf (timerB : Byte) : Nat := 384 * 16 * (256 - timerB.toNat)

/-- The derived periods recomputed (R212). -/
def State.recomputePeriods (s : State) : State :=
  { s with timerAPeriod := timerAPeriodOf s.timerA, timerBPeriod := timerBPeriodOf s.timerB }

end Sys2Proof.Machine
end

