-- ==== Sys2Proof/Machine/Ports.lean ====
section
/-! DEFINITION. The meanings of the latch and unused-port writes and of the port reads
(spec/40_port_interface.md R140, R150 to R154). -/

namespace Sys2Proof.Machine

open Sys2Proof Host

/-- What a meaning answers. -/
abbrev Answer := Outcome State Fault Refusal

/-- A write that only stores the byte: `regs[port] <- data` (R140). -/
def storePort (role : PortRole) (data : Byte) (s : State) : State := s.setReg role.port data

/-- `PORT_LATCH_FM0` (R140). -/
def execPortLatchFm0 (data : Byte) (s : State) : Answer := .next (storePort (.fmLatch 0#2) data s)

/-- `PORT_LATCH_FM1` (R140). -/
def execPortLatchFm1 (data : Byte) (s : State) : Answer := .next (storePort (.fmLatch 1#2) data s)

/-- `PORT_LATCH_FM2` (R140). -/
def execPortLatchFm2 (data : Byte) (s : State) : Answer := .next (storePort (.fmLatch 2#2) data s)

/-- `PORT_LATCH_FM3` (R140). -/
def execPortLatchFm3 (data : Byte) (s : State) : Answer := .next (storePort (.fmLatch 3#2) data s)

/-- `PORT_LATCH_PCM` (R140). -/
def execPortLatchPcm (data : Byte) (s : State) : Answer := .next (storePort (.pcmLatch) data s)

/-- `PORT_LATCH_TIM` (R140). -/
def execPortLatchTim (data : Byte) (s : State) : Answer := .next (storePort (.timLatch) data s)

/-- `PORT_UNUSED_A` (R140). -/
def execPortUnusedA (data : Byte) (s : State) : Answer := .next (storePort (.unusedA) data s)

/-- `PORT_UNUSED_B` (R140). -/
def execPortUnusedB (data : Byte) (s : State) : Answer := .next (storePort (.unusedB) data s)

/-- `PORT_UNUSED_E` (R140). -/
def execPortUnusedE (data : Byte) (s : State) : Answer := .next (storePort (.unusedE) data s)

/-- `PORT_UNUSED_F` (R140). -/
def execPortUnusedF (data : Byte) (s : State) : Answer := .next (storePort (.unusedF) data s)

/-- `READ_STATUS0`: no state changes (R150). -/
def execReadStatus0 (s : State) : Answer := .next (s.returnByte s.statusByte0)

/-- `READ_STATUS1`: no state changes (R151). -/
def execReadStatus1 (s : State) : Answer := .next (s.returnByte s.statusByte1)

/-- `READ_EXTDATA`: the latch, then the cursor advances and the latch is reloaded, whatever `ext_rw` holds (R152). -/
def execReadExtdata (s : State) : Answer := .next (s.advanceExt.returnByte s.extReadlatch)

/-- `READ_UNDOC`: 0xFF, and no state changes (R154). -/
def execReadUndoc (_port : Port) (s : State) : Answer := .next (s.returnByte 0xFF#8)

end Sys2Proof.Machine
end

