-- ==== Sys2Proof/Machine/Tables.lean ====
section
/-! DEFINITION. The look-up tables (spec/00_scope.md R9, R12, R18). Tables whose values the rules fix are written out or
computed here; tables that are parameters read the configuration's entry first and then the default of
spec/92_eei_decisions.md, or the opaque constant of Sys2Proof/Config.lean where the spec gives no default. -/

namespace Sys2Proof.Machine

open Sys2Proof

/-- Entry `i` of a parameter table: the configuration's, else the default. -/
def entryAt {α : Type} (t : Table α) (dflt : Nat → α) (i : Nat) : α := (t.lookup i).getD (dflt i)

/-- Entry `i` of a table written in rows of 16. -/
def rowEntry (t : List (List Nat)) (i : Nat) : Nat := (t.getD (i / 16) []).getD (i % 16) 0

/-! ### Waveforms (R307, R308) -/

/-- `trunc(32768 · sin((2i+1)π/1024))`, at most 32767, for i in 0..255: the first quarter of wave 0 (R307, R308;
DEDUCED: computed outside Lean with 80 digits, entry 13). -/
def sineQuarter : List (List Nat) := [
  [100, 301, 502, 703, 904, 1105, 1306, 1507, 1708, 1909, 2109, 2310, 2510, 2711, 2911, 3111],
  [3311, 3511, 3711, 3911, 4110, 4310, 4509, 4708, 4907, 5106, 5304, 5503, 5701, 5898, 6096, 6294],
  [6491, 6688, 6884, 7081, 7277, 7473, 7669, 7864, 8059, 8254, 8448, 8642, 8836, 9029, 9223, 9415],
  [9608, 9800, 9991, 10183, 10374, 10564, 10754, 10944, 11133, 11322, 11511, 11699, 11886, 12073, 12260, 12446],
  [12632, 12817, 13002, 13186, 13370, 13554, 13736, 13919, 14100, 14282, 14462, 14642, 14822, 15001, 15180, 15357],
  [15535, 15712, 15888, 16063, 16238, 16413, 16586, 16759, 16932, 17104, 17275, 17445, 17615, 17784, 17953, 18121],
  [18288, 18454, 18620, 18785, 18950, 19113, 19276, 19439, 19600, 19761, 19921, 20080, 20239, 20396, 20553, 20709],
  [20865, 21020, 21173, 21326, 21479, 21630, 21781, 21931, 22080, 22228, 22375, 22521, 22667, 22812, 22956, 23099],
  [23241, 23382, 23523, 23662, 23801, 23939, 24075, 24211, 24346, 24480, 24614, 24746, 24877, 25008, 25137, 25266],
  [25393, 25520, 25645, 25770, 25894, 26016, 26138, 26259, 26379, 26498, 26615, 26732, 26848, 26963, 27076, 27189],
  [27301, 27411, 27521, 27630, 27737, 27844, 27949, 28054, 28157, 28259, 28361, 28461, 28560, 28658, 28755, 28851],
  [28946, 29039, 29132, 29223, 29314, 29403, 29491, 29578, 29664, 29749, 29833, 29915, 29997, 30077, 30156, 30235],
  [30312, 30387, 30462, 30535, 30608, 30679, 30749, 30818, 30886, 30952, 31018, 31082, 31145, 31207, 31268, 31327],
  [31386, 31443, 31499, 31554, 31607, 31660, 31711, 31761, 31810, 31857, 31904, 31949, 31993, 32036, 32078, 32118],
  [32157, 32195, 32232, 32268, 32302, 32335, 32367, 32398, 32427, 32456, 32483, 32509, 32533, 32557, 32579, 32600],
  [32619, 32638, 32655, 32671, 32686, 32700, 32712, 32723, 32733, 32741, 32749, 32755, 32760, 32764, 32766, 32767]]

/-- `trunc(32768 · sin((2i+1)π/1024)^2)` for i in 0..255: the first quarter of wave 1 (R307, R308; DEDUCED: computed
outside Lean with 80 digits, entry 13). -/
def sineSquareQuarter : List (List Nat) := [
  [0, 2, 7, 15, 24, 37, 52, 69, 89, 111, 135, 162, 192, 224, 258, 295],
  [334, 376, 420, 466, 515, 566, 620, 676, 734, 795, 858, 924, 991, 1061, 1134, 1208],
  [1285, 1365, 1446, 1530, 1616, 1704, 1794, 1887, 1982, 2079, 2178, 2279, 2382, 2488, 2595, 2705],
  [2817, 2931, 3046, 3164, 3284, 3406, 3529, 3655, 3783, 3912, 4043, 4176, 4311, 4448, 4587, 4727],
  [4870, 5013, 5159, 5306, 5455, 5606, 5758, 5912, 6068, 6224, 6383, 6543, 6704, 6867, 7032, 7198],
  [7365, 7533, 7703, 7874, 8047, 8221, 8395, 8572, 8749, 8927, 9107, 9288, 9469, 9652, 9836, 10021],
  [10207, 10393, 10581, 10769, 10959, 11149, 11340, 11531, 11724, 11917, 12111, 12305, 12500, 12696, 12892, 13089],
  [13286, 13483, 13682, 13880, 14079, 14278, 14478, 14678, 14878, 15078, 15278, 15479, 15680, 15881, 16082, 16283],
  [16484, 16685, 16886, 17087, 17288, 17489, 17689, 17889, 18089, 18289, 18489, 18688, 18887, 19085, 19284, 19481],
  [19678, 19875, 20071, 20267, 20462, 20656, 20850, 21043, 21236, 21427, 21618, 21808, 21998, 22186, 22374, 22560],
  [22746, 22931, 23115, 23298, 23479, 23660, 23840, 24018, 24195, 24372, 24546, 24720, 24893, 25064, 25234, 25402],
  [25569, 25735, 25900, 26063, 26224, 26384, 26543, 26699, 26855, 27009, 27161, 27312, 27461, 27608, 27754, 27897],
  [28040, 28180, 28319, 28456, 28591, 28724, 28855, 28984, 29112, 29238, 29361, 29483, 29603, 29721, 29836, 29950],
  [30062, 30172, 30279, 30385, 30488, 30589, 30688, 30785, 30880, 30973, 31063, 31151, 31237, 31321, 31402, 31482],
  [31559, 31633, 31706, 31776, 31843, 31909, 31972, 32033, 32091, 32147, 32201, 32252, 32301, 32347, 32391, 32433],
  [32472, 32509, 32543, 32575, 32605, 32632, 32656, 32678, 32698, 32715, 32730, 32743, 32752, 32760, 32765, 32767]]

/-- A half period from its first quarter: `sin` is symmetric about index 255.5. -/
def halfPeriod (quarter : List (List Nat)) (i : Nat) : Nat :=
  if i < 256 then rowEntry quarter i else rowEntry quarter (511 - i)

/-- A full period, the second half the negative of the first. -/
def fullPeriod (quarter : List (List Nat)) (i : Nat) : Int :=
  if i < 512 then (halfPeriod quarter i : Int) else -(halfPeriod quarter (i - 512) : Int)

/-- `wave[w][i]` for `i` in 0..1023 (R307). Wave 4 is `m2(i) = m(2i)` on the first half. -/
def waveAt (w : BitVec 3) (i : Nat) : Int :=
  match w.toNat with
  | 0 => fullPeriod sineQuarter i
  | 1 => fullPeriod sineSquareQuarter i
  | 2 => (fullPeriod sineQuarter i).natAbs
  | 3 => if i < 512 then fullPeriod sineQuarter i else 0
  | 4 => if i < 512 then fullPeriod sineQuarter (2 * i) else 0
  | 5 => if i < 512 then ((fullPeriod sineQuarter (2 * i)).natAbs : Int) else 0
  | 6 => 32767
  | _ => 0

/-! ### Volume tables -/

/-- `ev[i] = trunc(65536 / 10^((i * 96 / 256) / 20))` for i in 0..255 (R241). -/
def evTable : List (List Nat) := [
  [65536, 62766, 60114, 57574, 55141, 52811, 50580, 48442, 46395, 44435, 42557, 40759, 39037, 37387, 35807, 34294],
  [32845, 31457, 30128, 28855, 27636, 26468, 25350, 24278, 23253, 22270, 21329, 20428, 19565, 18738, 17946, 17188],
  [16461, 15766, 15100, 14462, 13850, 13265, 12705, 12168, 11654, 11161, 10690, 10238, 9805, 9391, 8994, 8614],
  [8250, 7901, 7567, 7248, 6941, 6648, 6367, 6098, 5840, 5594, 5357, 5131, 4914, 4706, 4507, 4317],
  [4135, 3960, 3792, 3632, 3479, 3332, 3191, 3056, 2927, 2803, 2685, 2571, 2463, 2359, 2259, 2163],
  [2072, 1984, 1900, 1820, 1743, 1670, 1599, 1531, 1467, 1405, 1345, 1288, 1234, 1182, 1132, 1084],
  [1038, 994, 952, 912, 873, 837, 801, 767, 735, 704, 674, 645, 618, 592, 567, 543],
  [520, 498, 477, 457, 438, 419, 401, 384, 368, 352, 338, 323, 310, 296, 284, 272],
  [260, 249, 239, 229, 219, 210, 201, 192, 184, 176, 169, 162, 155, 148, 142, 136],
  [130, 125, 119, 114, 110, 105, 100, 96, 92, 88, 84, 81, 77, 74, 71, 68],
  [65, 62, 60, 57, 55, 52, 50, 48, 46, 44, 42, 40, 39, 37, 35, 34],
  [32, 31, 30, 28, 27, 26, 25, 24, 23, 22, 21, 20, 19, 18, 17, 17],
  [16, 15, 15, 14, 13, 13, 12, 12, 11, 11, 10, 10, 9, 9, 8, 8],
  [8, 7, 7, 7, 6, 6, 6, 6, 5, 5, 5, 5, 4, 4, 4, 4],
  [4, 3, 3, 3, 3, 3, 3, 3, 2, 2, 2, 2, 2, 2, 2, 2],
  [2, 1, 1, 1, 1, 1, 1, 1, 1, 1, 1, 1, 1, 1, 1, 1]]

/-- `ev[i]` (R241). -/
def evAt (i : Nat) : Nat := rowEntry evTable i

/-- `tl_lut[i] = trunc(65536 / 10^((0.75 * i) / 20))` for i in 0..127 (R306): 0.75 dB is two steps of `ev`. -/
def tlAt (i : Nat) : Nat := evAt (2 * i)

/-- The default channel-attenuation table (R432, D49). -/
def attnDefault (k : Nat) : Nat :=
  [65536, 49145, 32845, 24630, 16461, 12344, 8156, 6116, 4087, 3065, 2048, 1536, 1026, 1, 1, 1].getD k 0

/-- `attn[level]`: level 0 is 0 dB and levels 13 to 15 have the gain 1 whatever an instance sets (R432, C17). -/
def attnAt (c : Config) (level : BitVec 4) : Nat :=
  if level = 0#4 then 65536
  else if 13 ≤ level.toNat then 1
  else entryAt c.attn attnDefault level.toNat

/-! ### Envelope parameters -/

/-- `LUT_AR[r]` in samples at `STD_CLOCK` (R235). -/
def lutAR (c : Config) (r : Nat) : PosFrac := entryAt c.lutAR Config.attackSamples r

/-- `LUT_DC[r]` in samples at `STD_CLOCK` (R235). -/
def lutDC (c : Config) (r : Nat) : PosFrac := entryAt c.lutDC Config.decaySamples r

/-- The default `RKS[kc][ks] = kc >> (3 − ks)`, at `i = 4*kc + ks` (R233, D45). -/
def rksDefault (i : Nat) : Nat := (i / 4) >>> (3 - i % 4)

/-- `RKS[kc][keyscale]` (R233). -/
def rksAt (c : Config) (kc : Nat) (ks : BitVec 2) : Nat := entryAt c.rks rksDefault (4 * kc + ks.toNat)

/-! ### LFO parameters -/

/-- `LUT_LFO[f]` in Hz at `STD_CLOCK` (R271). -/
def lutLFO (c : Config) (f : Byte) : NonnegFrac := entryAt c.lutLFO Config.lfoHertz f.toNat

/-- The depth of the pitch LFO in thousandths of a cent (R272). -/
def plfoMilliCents (k : Nat) : Nat := [0, 3378, 5065, 6750, 10114, 20170, 40108, 79307].getD k 0

/-- The default pitch-LFO wave `phi_w(i)` (R272; 93_implementation_defined.md, G6). -/
def lfoShapeDefault (w i : Nat) : UnitFrac :=
  match w with
  | 1 => if i < 128 then .ofRatio false i 126 else .ofRatio true (255 - i) 126
  | 2 => if i < 128 then .ofRatio false 1 0 else .ofRatio true 1 0
  | 3 =>
    if i < 64 then .ofRatio false i 63
    else if i < 128 then .ofRatio false (128 - i) 63
    else if i < 192 then .ofRatio true (i - 128) 63
    else .ofRatio true (256 - i) 63
  | _ => .ofRatio false 0 0

/-- The pitch-LFO wave `phi_w(i)`; the "off" wave is 0 whatever an instance sets (R272). -/
def lfoShapeAt (c : Config) (w : BitVec 2) (i : Nat) : UnitFrac :=
  if w = 0#2 then .ofRatio false 0 0
  else entryAt c.lfoShape (fun _ => lfoShapeDefault w.toNat i) (256 * w.toNat + i)

/-- `ln 2` in units of 2^-128. -/
def ln2Fixed : Nat := 0xb17217f7d1cf79abc9e3b39803f2f6af

/-- The exponential series in units of 2^-128: `n` terms after the term `t`, which has index `k`. -/
def expSeries (y : Nat) : Nat → Nat → Nat → Nat
  | 0, _, _ => 0
  | n + 1, k, t => t + expSeries y n (k + 1) (t * y / (2 ^ 128 * (k + 1)))

/-- `2^x` in units of 2^-128, for `x = num / den` with `0 ≤ x < 1`. -/
def exp2Fixed (num den : Nat) : Nat := expSeries (ln2Fixed * num / den) 25 0 (2 ^ 128)

/-- A number in units of 2^-128 and in [1/2, 2) rounded to the nearest binary64 value, in units of 2^-53. -/
def toBinary64 (v : Nat) : Nat :=
  if 2 ^ 128 ≤ v then 2 * ((2 * v + 2 ^ 76) / 2 ^ 77) else (2 * v + 2 ^ 75) / 2 ^ 76

/-- `2^(c[k] * phi / 1200)` in units of 2^-53 (R272; entry 12). -/
def plfoOf (k : Nat) (phi : UnitFrac) : Nat :=
  let up := exp2Fixed (plfoMilliCents k * phi.num.val) (1200000 * phi.den)
  toBinary64 (if phi.negative then 2 ^ 256 / up else up)

/-- `PLFO[w][k][i] = 2^(c[k] * phi_w(i) / 1200)` in units of 2^-53 (R272). -/
def plfoAt (c : Config) (w : BitVec 2) (k : BitVec 3) (i : Nat) : Nat := plfoOf k.toNat (lfoShapeAt c w i)

/-- The default `ALFO[w][i]` (R273; 93_implementation_defined.md, G7). -/
def alfoDefault (w i : Nat) : Nat :=
  match w with
  | 1 => 65536 - 256 * i
  | 2 => if i < 128 then 65536 else 0
  | 3 => if i < 128 then 65536 - i % 128 * 512 else i % 128 * 512
  | _ => 0

/-- `ALFO[w][i]`; the "off" wave is 0 whatever an instance sets (R273, D23). -/
def alfoAt (c : Config) (w : BitVec 2) (i : Nat) : Nat :=
  if w = 0#2 then 0 else entryAt c.alfo (fun _ => alfoDefault w.toNat i) (256 * w.toNat + i)

/-- `K[ams]` of the amplitude-modulation gain (R274). -/
def amDepth (ams : Nat) : Nat := [65536, 33202, 16821, 4317].getD ams 65536

/-- The default `ALFO_GAIN(ams, a) = 65536 − ((a * (65536 − K[ams])) >> 16)` (R274, D21; entry 19). -/
def alfoGainDefault (ams a : Nat) : Nat := 65536 - (a * (65536 - amDepth ams)) >>> 16

/-- `ALFO_GAIN(ams, a)`: no attenuation at `ams = 0`, whose depth is 0 dB, nor at amplitude 0, whatever an instance sets
(R273, R274). -/
def alfoGainAt (c : Config) (ams : BitVec 2) (a : Nat) : Nat :=
  if ams = 0#2 ∨ a = 0 then 65536 else entryAt c.alfoGain (fun _ => alfoGainDefault ams.toNat a) (65537 * ams.toNat + a)

/-! ### Pitch tables -/

/-- `2 * pow[block]` (R280). -/
def powTwice (block : BitVec 4) : Nat :=
  [256, 512, 1024, 2048, 4096, 8192, 16384, 32768, 1, 2, 4, 8, 16, 32, 64, 128].getD block.toNat 0

/-- `2 * mult[multiple]` (R281). -/
def multTwice (multiple : BitVec 4) : Nat := if multiple.toNat = 0 then 1 else 2 * multiple.toNat

/-- `LUT_DETUNE[detune][kc]`: rows 0 and 4 are zero, rows 1 to 3 are not negative, rows 5 to 7 not positive; the default
magnitude is 0 (R282, D44). -/
def detuneAt (c : Config) (detune : BitVec 3) (kc : Nat) : SignedFrac :=
  let size := entryAt c.lutDetune (fun _ => ⟨0, 0⟩) (32 * detune.toNat + kc)
  match detune.toNat with
  | 0 => ⟨0, 0⟩
  | 4 => ⟨0, 0⟩
  | 5 => ⟨-(size.num : Int), size.denPred⟩
  | 6 => ⟨-(size.num : Int), size.denPred⟩
  | 7 => ⟨-(size.num : Int), size.denPred⟩
  | _ => ⟨size.num, size.denPred⟩

/-! ### Operator levels -/

/-- `modulation_level = {16, 8, 4, 2, 1, 32, 64, 128}` (R303). -/
def modulationLevel (f : BitVec 3) : Nat := [16, 8, 4, 2, 1, 32, 64, 128].getD f.toNat 0

/-- `feedback_level = {0, 1, 2, 4, 8, 16, 32, 64}` (R304). -/
def feedbackLevel (f : BitVec 3) : Nat := [0, 1, 2, 4, 8, 16, 32, 64].getD f.toNat 0

end Sys2Proof.Machine
end

