-- ==== Sys2Proof/Machine/Envelope.lean ====
section
/-! DEFINITION. Keycode, rates and the envelope generator (spec/43_envelope.md). -/

namespace Sys2Proof.Machine

open Sys2Proof

/-- `n43` of the internal keycode (R230). -/
def n43Internal (fns : Nat) : Nat := if fns < 0x780 then 0 else if fns < 0x900 then 1 else if fns < 0xA80 then 2 else 3

/-- `n43_ext` of the external keycode (R231). -/
def n43External (f : Nat) : Nat := if f < 0x100 then 0 else if f < 0x300 then 1 else if f < 0x500 then 2 else 3

/-- The internal keycode, `(block & 7) * 4 + n43` (R230). -/
def internalKeycode (t : Slot) : Nat := t.block.toNat % 8 * 4 + n43Internal t.fns.toNat

/-- `fns[10:0]`, the F-number of the external PCM formulas (R231, R285). -/
def Slot.fns11 (t : Slot) : Nat := t.fns.toNat % 2048

/-- The external keycode, clamped to 31 (R231). -/
def externalKeycode (t : Slot) : Nat :=
  min (t.srcb.toNat * 4 + t.srcnote.toNat + (t.block.toNat * 4 + n43External t.fns11)) 31

/-- `waveform = 7`, the external PCM wave (R33). -/
def Slot.external (t : Slot) : Bool := t.waveform == 7#3

/-- The slot's keycode: external when `waveform = 7`, else internal (R232). -/
def keycode (t : Slot) : Nat := if t.external then externalKeycode t else internalKeycode t

/-- `base(e)` of the effective rate (R234). -/
def rateBase (t : Slot) : EnvState → Nat
  | .attack => t.ar.toNat * 2
  | .decay1 => t.d1r.toNat * 2
  | .decay2 => t.d2r.toNat * 2
  | .release => t.rr.toNat * 4

/-- The effective rate of an envelope state: `clamp(base(e) + RKS[kc][keyscale], 0, 63)` (R234). -/
def effectiveRate (c : Config) (t : Slot) (e : EnvState) : Nat :=
  min (rateBase t e + rksAt c (keycode t) t.keyscale) 63

/-- `trunc(delta / lut * 65536)`, where `lut` is a duration in samples at `STD_CLOCK`, scaled by `STD_CLOCK / CLOCK`
(R236, R541, D41). -/
def sweepStep (c : Config) (delta : Nat) (lut : PosFrac) : Nat :=
  delta * 65536 * lut.den * stdClock.den * c.clock.num / (lut.num * stdClock.num * c.clock.den)

/-- `decay_level = 255 − d1l * 16` (R236, R238). -/
def decayLevel (t : Slot) : Int := 255 - t.d1l.toNat * 16

/-- `delta` of a state's sweep: `255 − decay_level` for DECAY1, else 255 (R236). -/
def sweepDelta (t : Slot) : EnvState → Nat
  | .decay1 => t.d1l.toNat * 16
  | _ => 255

/-- The duration entry of a state: `LUT_AR` for attack and release, `LUT_DC` for the decays (R236). -/
def sweepEntry (c : Config) (r : Nat) : EnvState → PosFrac
  | .attack => lutAR c r
  | .release => lutAR c r
  | .decay1 => lutDC c r
  | .decay2 => lutDC c r

/-- `env_step[e]` as key-on computes it (R236, R237). -/
def envStepOf (c : Config) (t : Slot) (e : EnvState) : Nat :=
  let r := effectiveRate c t e
  if r < 4 then 0 else sweepStep c (sweepDelta t e) (sweepEntry c r e)

/-- The top of the volume, `255 << 16` (R36, R238). -/
def volumeTop : Int := 16711680

/-- The volume at key-on, `(255 − 160) << 16` (R236). -/
def volumeStart : Int := 6225920

/-- `init_envelope(s)` (R236). -/
def initEnvelope (c : Config) (t : Slot) : Slot :=
  { t with
    envStepAttack := envStepOf c t .attack
    envStepDecay1 := envStepOf c t .decay1
    envStepDecay2 := envStepOf c t .decay2
    envStepRelease := envStepOf c t .release
    volume := volumeStart
    envState := .attack }

/-- `end_check(s)`: whether the envelope has ended, and the slot after it (R239). -/
def endCheck (t : Slot) : Bool × Slot :=
  if t.volume ≤ 0 then (true, { t with active := false, volume := 0 }) else (false, t)

/-- One tick in ATTACK (R238). -/
def tickAttack (t : Slot) : Slot :=
  let v := t.volume + t.envStepAttack
  if volumeTop ≤ v then { t with volume := volumeTop, envState := .decay1 } else { t with volume := v }

/-- One tick in DECAY1: the end check comes before the transition (R238). -/
def tickDecay1 (t : Slot) : Slot :=
  let (ended, t') := endCheck { t with volume := t.volume - t.envStepDecay1 }
  if !ended && decide (sar t'.volume 16 ≤ decayLevel t') then { t' with envState := .decay2 } else t'

/-- `update_envelope(s)`, one tick (R238). -/
def updateEnvelope (t : Slot) : Slot :=
  match t.envState with
  | .attack => tickAttack t
  | .decay1 => tickDecay1 t
  | .decay2 => (endCheck { t with volume := t.volume - t.envStepDecay2 }).2
  | .release => (endCheck { t with volume := t.volume - t.envStepRelease }).2

end Sys2Proof.Machine
end

