-- ==== Sys2Proof/Machine/Lfo.lean ====
section
/-! DEFINITION. The LFO and the block-to-frequency converter (spec/44_lfo_pitch.md). -/

namespace Sys2Proof.Machine

open Sys2Proof

/-! ### The phase step (R285) -/

/-- A quotient rounded to the nearest natural, ties to even. -/
def roundHalfEven (num den : Nat) : Nat :=
  let q := num / den
  let r := 2 * (num % den)
  if r < den then q else if den < r then q + 1 else q + q % 2

/-- `trunc(fl(num / den) / 2^shift)`, where `fl` rounds to the nearest binary64 value, ties to even (R285, I12). A
quotient below 1 rounds to at most 1, which the shift takes to 0. -/
def truncBinary64 (num den shift : Nat) : Nat :=
  if num / den = 0 then 0
  else
    let e := (num / den).log2
    if e ≤ 52 then roundHalfEven (num * 2 ^ (52 - e)) den / 2 ^ (52 - e + shift)
    else roundHalfEven num (den * 2 ^ (e - 52)) * 2 ^ (e - 52) / 2 ^ shift

/-- `trunc` of the scaled product under the configured numerics (I12). -/
def truncScaled (c : Config) (num den shift : Nat) : Nat :=
  match c.stepNumerics with
  | .binary64 => truncBinary64 num den shift
  | .exactRational => num / (den * 2 ^ shift)

/-- `2^53`, the unit of `lfo_phasemod`. -/
def phasemodUnit : Nat := 9007199254740992

/-- The internal-wave step: `I = 2 * (fns + dt) * pow * mult * 1024`, the product with `lfo_phasemod` divided by 8192; a
negative value becomes 0 (R285). -/
def internalStep (c : Config) (t : Slot) : Nat :=
  let dt := detuneAt c t.detune (keycode t)
  let f := (t.fns.toNat * dt.den + dt.num).toNat
  truncScaled c (f * powTwice t.block * multTwice t.multiple * 512 * t.lfoPhasemod) (dt.den * phasemodUnit) 13

/-- The external-PCM step: `I = 2 * (fns[10:0] | 2048) * pow * fsf * mult`, the product with `lfo_phasemod` divided by
8 (R283, R285). -/
def externalStep (c : Config) (t : Slot) : Nat :=
  truncScaled c ((t.fns11 + 2048) * powTwice t.block * multTwice t.multiple * t.lfoPhasemod)
    (2 * 2 ^ t.fs.toNat * phasemodUnit) 3

/-- `calc_step(s)` (R285). -/
def calcStep (c : Config) (t : Slot) : BitVec 32 :=
  BitVec.ofNat 32 (if t.external then externalStep c t else internalStep c t)

/-! ### LFO operation -/

/-- The table index of an LFO phase: `(lfo_phase >> 8) & 255` (R270). -/
def lfoIndex (phase : BitVec 32) : Nat := (phase.extractLsb' 8 8).toNat

/-- `trunc(LFO_LENGTH * LUT_LFO[lfoFreq] / SAMPLE_RATE * 256)`, the frequency scaled by `CLOCK / STD_CLOCK` (R275, R541,
D41). -/
def lfoStepOf (c : Config) (t : Slot) : BitVec 32 :=
  let hz := lutLFO c t.lfoFreq
  BitVec.ofNat 32
    (65536 * hz.num * c.clock.num * stdClock.den * c.sampleRate.den
      / (hz.den * c.clock.den * stdClock.num * c.sampleRate.num))

/-- `init_lfo(s)`, at key-on (R275). -/
def initLfo (c : Config) (t : Slot) : Slot :=
  { t with
    lfoPhase := 0#32
    lfoStep := lfoStepOf c t
    lfoAmplitude := alfoAt c t.lfowave 0
    lfoPhasemod := plfoAt c t.lfowave t.pms 0 }

/-- The part of `update_lfo(s)` before the step (R276). -/
def advanceLfo (c : Config) (t : Slot) : Slot :=
  let phase := t.lfoPhase + t.lfoStep
  { t with
    lfoPhase := phase
    lfoAmplitude := alfoAt c t.lfowave (lfoIndex phase)
    lfoPhasemod := plfoAt c t.lfowave t.pms (lfoIndex phase) }

/-- `step <- calc_step(s)`. -/
def Slot.withStep (c : Config) (t : Slot) : Slot := { t with step := calcStep c t }

/-- `update_lfo(s)`, one tick (R276). -/
def updateLfo (c : Config) (t : Slot) : Slot := (advanceLfo c t).withStep c

/-- One tick of a slot: envelope, then LFO (R300, R392). -/
def slotTick (c : Config) (t : Slot) : Slot := updateLfo c (updateEnvelope t)

end Sys2Proof.Machine
end

