-- ==== Sys2Proof/Machine/Operator.lean ====
section
/-! DEFINITION. The FM operator, feedback and slot volume (spec/45_operator.md). -/

namespace Sys2Proof.Machine

open Sys2Proof

/-- The modulation input of an operator (R300). -/
inductive OpInput
  | none
  | feedback
  | value (v : Int)
  deriving DecidableEq, Repr

/-- `slot_volume(s)`: envelope, amplitude LFO and total level, each product shifted right by 16 (R305). -/
def slotVolume (c : Config) (t : Slot) : Nat :=
  ((evAt (255 - sar t.volume 16).toNat * alfoGainAt c t.ams t.lfoAmplitude) >>> 16 * tlAt t.tl.toNat) >>> 16

/-- `phase_index(stepptr, x) = ((stepptr + x) >> 16) & 1023` on the exact sum (R301). -/
def phaseIndex (stepptr : BitVec 64) (x : Int) : Nat := (sar (stepptr.toNat + x) 16 % 1024).toNat

/-- `feedback_input(s)`: the average of the two feedback words, the second moved into the first (R302). -/
def feedbackInput (t : Slot) : Int × Slot := ((t.fbMod0.toInt + t.fbMod1.toInt).tdiv 2, { t with fbMod0 := t.fbMod1 })

/-- The modulation input of a value: `(v << 8) * modulation_level[feedback]` of the receiving slot (R303). -/
def modulationInput (t : Slot) (v : Int) : Int := v * 256 * modulationLevel t.feedback

/-- The input `x` of an operator and the slot after reading it (R300). -/
def readInput (t : Slot) : OpInput → Int × Slot
  | .none => (0, t)
  | .feedback => feedbackInput t
  | .value v => (modulationInput t v, t)

/-- `set_feedback(s, v)`: `fb_mod1 <- ((v << 8) * feedback_level[feedback]) / 4` (R304). -/
def setFeedback (t : Slot) (v : Int) : Slot :=
  { t with fbMod1 := BitVec.ofInt 64 ((v * 256 * feedbackLevel t.feedback).tdiv 4) }

/-- A sample at a volume: `(sample * env) >> 16` (R300, R341). -/
def scaled (sample : Int) (env : Nat) : Int := sar (sample * env) 16

/-- `calculate_op(s, inp)`: the result and the slot after it (R300). -/
def calculateOp (c : Config) (t : Slot) (inp : OpInput) : Int × Slot :=
  let t1 := slotTick c t
  let (x, t2) := readInput t1 inp
  (scaled (waveAt t2.waveform (phaseIndex t2.stepptr x)) (slotVolume c t1),
    { t2 with stepptr := t2.stepptr + t2.step.setWidth 64 })

end Sys2Proof.Machine
end

