-- ==== Sys2Proof/Machine/Pcm.lean ====
section
/-! DEFINITION. The PCM sample reader and loop engine, and the PFM reader (spec/47_pcm_reader.md;
spec/46_algorithms.md R341). -/

namespace Sys2Proof.Machine

open Sys2Proof

/-- `key_on_pointer(s)` (R391). -/
def keyOnPointer (c : Config) (t : Slot) : BitVec 64 :=
  match c.pcmAddrMode with
  | .relative => 0#64
  | .absolute => if t.external then BitVec.ofNat 64 (t.startaddr.toNat * 65536) else 0#64

/-- `sample_index(s, p)` (R392). -/
def sampleIndex (c : Config) (t : Slot) (p : Int) : Int :=
  match c.pcmAddrMode with
  | .relative => sar p 16
  | .absolute => sar p 16 - t.startaddr.toNat

/-- `sext_16` of a 16-bit value, high byte first. -/
def signed16 (high low : Byte) : Int := (high ++ low).toInt

/-- `pcm_sample(s, idx)`: 8-bit samples one byte each, 12-bit samples two per three bytes (R86, R393). -/
def pcmSample (m : Rom) (t : Slot) (idx : Int) : Int :=
  match t.bits with
  | .eight => signed16 (memRead m (t.startaddr.toNat + idx)) 0#8
  | .twelve =>
    let base := t.startaddr.toNat + sar idx 1 * 3
    if idx % 2 = 0 then signed16 (memRead m base) (memRead m (base + 1) &&& 0xF0#8)
    else signed16 (memRead m (base + 2)) ((memRead m (base + 1) &&& 0x0F#8) <<< 4)

/-- `pcm_advance(s)`: `p <- p + loop_direction * step` (R394). -/
def pcmAdvance (t : Slot) : Slot :=
  { t with
    stepptr :=
      match t.loopDirection with
      | .forward => t.stepptr + t.step.setWidth 64
      | .reverse => t.stepptr - t.step.setWidth 64 }

/-- The pointer with its integer part replaced and its fraction kept (R395 to R397). -/
def snapTo (a : Addr) (p : Int) : Int := a.toNat * 65536 + p % 65536

/-- The pointer of a forward loop after the event: one loop length back, then snapped to the loop point, then to the end
(R395). -/
def forwardWrap (t : Slot) (p : Int) : Int :=
  let stillPast (q : Int) : Bool := decide ((t.endaddr.toNat : Int) < sar q 16)
  let p1 := p - ((t.endaddr.toNat : Int) - t.loopaddr.toNat) * 65536
  let p2 := if stillPast p1 then snapTo t.loopaddr p1 else p1
  if stillPast p2 then snapTo t.endaddr p2 else p2

/-- `loop_check(s)`: the slot after the loop rules and whether a loop event happened (R395 to R398). -/
def loopCheck (t : Slot) : Slot × Bool :=
  let p := t.stepptr.toInt
  match t.loopDirection with
  | .forward =>
    if (t.endaddr.toNat : Int) < sar p 16 then
      if t.altloop then
        ({ t with loopDirection := .reverse, stepptr := BitVec.ofInt 64 (snapTo t.endaddr p) }, true)
      else ({ t with stepptr := BitVec.ofInt 64 (forwardWrap t p) }, true)
    else (t, false)
  | .reverse =>
    if sar p 16 < t.loopaddr.toNat then
      ({ t with loopDirection := .forward, stepptr := BitVec.ofInt 64 (snapTo t.loopaddr p) }, true)
    else (t, false)

/-- The pointer's advance and the loop check (R392, R341). -/
def advanceAndLoop (t : Slot) : Slot × Bool := loopCheck (pcmAdvance t)

/-- `pfm_op(s, inp)`: the result, the slot after it and whether a loop event happened (R341). -/
def pfmOp (c : Config) (m : Rom) (t : Slot) (inp : OpInput) : Int × Slot × Bool :=
  let t1 := slotTick c t
  let (x, t2) := readInput t1 inp
  (scaled (pcmSample m t2 (sampleIndex c t2 (t2.stepptr.toInt + x))) (slotVolume c t1), advanceAndLoop t2)

/-- A loop event of a slot sets its end marker (R398). -/
def State.loopEvent (s : State) (i : SlotIx) (happened : Bool) : State := if happened then s.setEndStatus i true else s

end Sys2Proof.Machine
end

