-- ==== Sys2Proof/Machine/Mixer.lean ====
section
/-! DEFINITION. The accumulator path, channel attenuation, the direct mix and the stereo fold
(spec/48_accumulator_mixer.md). -/

namespace Sys2Proof.Machine

open Sys2Proof

/-- A channel of the mix buffers (R40). -/
inductive Channel
  | ch0
  | ch1
  | ch2
  | ch3
  deriving DecidableEq, Repr

/-- `ch_c_level` of a slot (R33, R333). -/
def Slot.level (t : Slot) : Channel → BitVec 4
  | .ch0 => t.ch0Level
  | .ch1 => t.ch1Level
  | .ch2 => t.ch2Level
  | .ch3 => t.ch3Level

/-- `sat18(v) = clamp(v, −131072, 131071)` (R422). -/
def sat18 (v : Int) : Int := clamp v (-131072) 131071

/-- `accumulation_factor = (tl = 0) ? 2 : tl * 2` (R421). -/
def accumulationFactor (tl : BitVec 7) : Nat := if tl.toNat = 0 then 2 else tl.toNat * 2

/-- The sample of the ACC path: gain, 18-bit saturation, restore shift (R421 to R423). -/
def accSample (t : Slot) (smp : Int) : Int := sar (sat18 (smp * accumulationFactor t.tl)) 2

/-- A channel of a frame: the four values combined with one value per channel. -/
def Frame.combine (f : Frame) (op : BitVec 32 → Int → BitVec 32) (v : Channel → Int) : Frame :=
  ⟨op f.ch0 (v .ch0), op f.ch1 (v .ch1), op f.ch2 (v .ch2), op f.ch3 (v .ch3)⟩

/-- An addition to the direct buffer, kept in 32 bits (R13, R433). -/
def addDirect (x : BitVec 32) (v : Int) : BitVec 32 := BitVec.ofInt 32 (x.toInt + v)

/-- An addition to the ACC buffer, saturated to 18 bits (R424). -/
def addSaturated (x : BitVec 32) (v : Int) : BitVec 32 := BitVec.ofInt 32 (sat18 (x.toInt + v))

/-- What a carrier adds to a channel: `(out * attn[level]) >> 16` (R333). -/
def carrierPart (c : Config) (t : Slot) (out : Int) (ch : Channel) : Int := sar (out * attnAt c (t.level ch)) 16

/-- What an ACC sample adds to a channel: `(a2 * attn[level]) >> 16` (R424). -/
def accPart (c : Config) (t : Slot) (smp : Int) (ch : Channel) : Int := sar (accSample t smp * attnAt c (t.level ch)) 16

/-- What a direct PCM sample adds to a channel: `(smp * v) >> 16` with `v = min((env * attn[level]) >> 16, 65536)`
(R434). -/
def directPart (c : Config) (t : Slot) (smp : Int) (ch : Channel) : Int :=
  sar (smp * (min ((slotVolume c t * attnAt c (t.level ch)) >>> 16) 65536 : Nat)) 16

/-- One value per channel added to the direct buffer at sample `i` (R333, R434). -/
def State.mixDirect (s : State) (i : Nat) (v : Channel → Int) : State :=
  { s with mixbuf := s.mixbuf.modify i fun f => f.combine addDirect v }

/-- One value per channel added to the ACC buffer at sample `i`, saturating (R424). -/
def State.mixAcc (s : State) (i : Nat) (v : Channel → Int) : State :=
  { s with accbuf := s.accbuf.modify i fun f => f.combine addSaturated v }

/-- The chunk-end fold of one frame: `mixbuf[j] + accbuf[j]` (R435). -/
def foldFrame (m a : Frame) : Frame := ⟨m.ch0 + a.ch0, m.ch1 + a.ch1, m.ch2 + a.ch2, m.ch3 + a.ch3⟩

/-- One side of the stereo fold: `(front + ((rear * 5) >> 8)) >> 2` (R436). -/
def stereoSide (front rear : BitVec 32) : BitVec 32 := BitVec.ofInt 32 (sar (front.toInt + sar (rear.toInt * 5) 8) 2)

/-- `L[i]` of a folded frame (R436). -/
def Frame.left (f : Frame) : BitVec 32 := stereoSide f.ch0 f.ch2

/-- `R[i]` of a folded frame (R436). -/
def Frame.right (f : Frame) : BitVec 32 := stereoSide f.ch1 f.ch3

end Sys2Proof.Machine
end

