-- ==== Sys2Proof/Machine/Operands.lean ====
section
/-! DEFINITION. Operand decoding of the register interface (spec/30_encoding.md R106 to R111, R117): the selector tables,
the group decode of the timer port, the mirror targets of a synchronised write (spec/40_port_interface.md R142), and the
writes of part of a multi-byte register (spec/20_memory.md R85). -/

namespace Sys2Proof.Machine

open Sys2Proof

/-- `fm_tab = {0,1,2,-1,3,4,5,-1,6,7,8,-1,9,10,11,-1}` (R106). -/
def fmTab (n : Nibble) : Option GroupIx :=
  match n.toNat with
  | 0x0 => some 0
  | 0x1 => some 1
  | 0x2 => some 2
  | 0x4 => some 3
  | 0x5 => some 4
  | 0x6 => some 5
  | 0x8 => some 6
  | 0x9 => some 7
  | 0xA => some 8
  | 0xC => some 9
  | 0xD => some 10
  | 0xE => some 11
  | _ => none

/-- `pcm_tab = {0,4,8,-1,12,16,20,-1,24,28,32,-1,36,40,44,-1}` (R108). -/
def pcmTab (n : Nibble) : Option SlotIx :=
  match n.toNat with
  | 0x0 => some 0
  | 0x1 => some 4
  | 0x2 => some 8
  | 0x4 => some 12
  | 0x5 => some 16
  | 0x6 => some 20
  | 0x8 => some 24
  | 0x9 => some 28
  | 0xA => some 32
  | 0xC => some 36
  | 0xD => some 40
  | 0xE => some 44
  | _ => none

/-- `nib(G) = 4*(G/3) + G mod 3`, the inverse of `fm_tab` (R116, R117). -/
def nib (g : GroupIx) : Nibble := BitVec.ofNat 4 (4 * (g.val / 3) + g.val % 3)

/-- `group_decode` of timer sub-addresses 0x00..0x0F (R211): `fm_tab`, or sub-address k for group k. -/
def groupDecode (mode : TimerGroupDecode) (n : Nibble) : Option GroupIx :=
  match mode with
  | .fmTab => fmTab n
  | .direct => if h : n.toNat < 12 then some ⟨n.toNat, h⟩ else none

/-- Banks a synchronised write from a bank reaches, in order, under a sync mode (R142). A bank that is not a key-on slot
reaches itself only. -/
def mirrorTargets (sync : BitVec 2) (bank : Bank) : List Bank :=
  match sync.toNat, bank.val with
  | 0, 0 => [0, 1, 2, 3]
  | 1, 0 => [0, 2]
  | 1, 1 => [1, 3]
  | 2, 0 => [0, 1, 2]
  | _, _ => [bank]

/-- `x[7:0] <- data` of a 23-bit register (R85). -/
def withLow (x : Addr) (data : Byte) : Addr := x.extractLsb' 8 15 ++ data

/-- `x[15:8] <- data` of a 23-bit register (R85). -/
def withMid (x : Addr) (data : Byte) : Addr := x.extractLsb' 16 7 ++ data ++ x.extractLsb' 0 8

/-- `x[22:16] <- data[6:0]` of a 23-bit register (R85). -/
def withHigh (x : Addr) (data : Byte) : Addr := data.extractLsb' 0 7 ++ x.extractLsb' 0 16

/-- `timerA[9:2] <- data` (R214). -/
def withTimerHigh (x : BitVec 10) (data : Byte) : BitVec 10 := data ++ x.extractLsb' 0 2

/-- `timerA[1:0] <- data[1:0]` (R218). -/
def withTimerLow (x : BitVec 10) (data : Byte) : BitVec 10 := x.extractLsb' 2 8 ++ data.extractLsb' 0 2

end Sys2Proof.Machine
end

