-- ==== Sys2Proof/Machine/Network.lean ====
section
/-! DEFINITION. The FM algorithm network (spec/46_algorithms.md): the 28 routings as data, written from the table of R331
and the rules R350 to R378, and the evaluation of one routing for one sample (R330, R332, R333, R340). -/

namespace Sys2Proof.Machine

open Sys2Proof

/-- The four places of a network. In sync 1 the places `s1` and `s3` are the leader and the second slot of the pair
(R331, R370). -/
inductive Seat
  | s1
  | s2
  | s3
  | s4
  deriving DecidableEq, Repr

/-- The modulation input of a stage: none, the feedback words, one earlier result, or the sum of two (R330). -/
inductive StageInput
  | none
  | feedback
  | one (a : Seat)
  | two (a b : Seat)
  deriving DecidableEq, Repr

/-- A stage of a routing: an operator of a place, or `set_feedback` of the leader with the result of a place (R330,
R331). -/
inductive Stage
  | op (k : Seat) (inp : StageInput)
  | tap (k : Seat)
  deriving DecidableEq, Repr

/-- A routing: its stages in order, and its carriers in the order `out1, out2, out3, out4` (R331, R333). -/
structure Routing where
  stages : List Stage
  carriers : List Seat
  deriving DecidableEq, Repr

/-- `ALG0_0` (R350): `FB; sf(pm1); pm3=S3(pm1); pm2=S2(pm3); out4=S4(pm2)`. -/
def routing0_0 : Routing :=
  ⟨[.op .s1 .feedback, .tap .s1, .op .s3 (.one .s1), .op .s2 (.one .s3), .op .s4 (.one .s2)], [.s4]⟩

/-- `ALG0_1` (R351): `FB; pm3=S3(pm1); sf(pm3); pm2=S2(pm3); out4=S4(pm2)`. -/
def routing0_1 : Routing :=
  ⟨[.op .s1 .feedback, .op .s3 (.one .s1), .tap .s3, .op .s2 (.one .s3), .op .s4 (.one .s2)], [.s4]⟩

/-- `ALG0_2` (R352): `FB; sf(pm1); pm3=S3(N); pm2=S2(pm1+pm3); out4=S4(pm2)`. -/
def routing0_2 : Routing :=
  ⟨[.op .s1 .feedback, .tap .s1, .op .s3 .none, .op .s2 (.two .s1 .s3), .op .s4 (.one .s2)], [.s4]⟩

/-- `ALG0_3` (R353): `FB; sf(pm1); pm3=S3(N); pm2=S2(pm3); out4=S4(pm1+pm2)`. -/
def routing0_3 : Routing :=
  ⟨[.op .s1 .feedback, .tap .s1, .op .s3 .none, .op .s2 (.one .s3), .op .s4 (.two .s1 .s2)], [.s4]⟩

/-- `ALG0_4` (R354): `FB; sf(pm1); pm3=S3(pm1); pm2=S2(N); out4=S4(pm3+pm2)`. -/
def routing0_4 : Routing :=
  ⟨[.op .s1 .feedback, .tap .s1, .op .s3 (.one .s1), .op .s2 .none, .op .s4 (.two .s3 .s2)], [.s4]⟩

/-- `ALG0_5` (R355): `FB; pm3=S3(pm1); sf(pm3); pm2=S2(N); out4=S4(pm3+pm2)`. -/
def routing0_5 : Routing :=
  ⟨[.op .s1 .feedback, .op .s3 (.one .s1), .tap .s3, .op .s2 .none, .op .s4 (.two .s3 .s2)], [.s4]⟩

/-- `ALG0_6` (R356): `FB; sf(pm1); out3=S3(pm1); pm2=S2(N); out4=S4(pm2)`. -/
def routing0_6 : Routing :=
  ⟨[.op .s1 .feedback, .tap .s1, .op .s3 (.one .s1), .op .s2 .none, .op .s4 (.one .s2)], [.s3, .s4]⟩

/-- `ALG0_7` (R357): `FB; pm3=S3(pm1); sf(pm3); out3=pm3; pm2=S2(N); out4=S4(pm2)`. -/
def routing0_7 : Routing :=
  ⟨[.op .s1 .feedback, .op .s3 (.one .s1), .tap .s3, .op .s2 .none, .op .s4 (.one .s2)], [.s3, .s4]⟩

/-- `ALG0_8` (R358): `FB; sf(pm1); out1=pm1; pm3=S3(N); pm2=S2(pm3); out4=S4(pm2)`. -/
def routing0_8 : Routing :=
  ⟨[.op .s1 .feedback, .tap .s1, .op .s3 .none, .op .s2 (.one .s3), .op .s4 (.one .s2)], [.s1, .s4]⟩

/-- `ALG0_9` (R359): `FB; sf(pm1); out1=pm1; pm3=S3(N); pm2=S2(N); out4=S4(pm3+pm2)`. -/
def routing0_9 : Routing :=
  ⟨[.op .s1 .feedback, .tap .s1, .op .s3 .none, .op .s2 .none, .op .s4 (.two .s3 .s2)], [.s1, .s4]⟩

/-- `ALG0_10` (R360): `FB; sf(pm1); out3=S3(pm1); out2=S2(N); out4=S4(N)`. -/
def routing0_10 : Routing :=
  ⟨[.op .s1 .feedback, .tap .s1, .op .s3 (.one .s1), .op .s2 .none, .op .s4 .none], [.s2, .s3, .s4]⟩

/-- `ALG0_11` (R361): `FB; pm3=S3(pm1); sf(pm3); out3=pm3; out2=S2(N); out4=S4(N)`. -/
def routing0_11 : Routing :=
  ⟨[.op .s1 .feedback, .op .s3 (.one .s1), .tap .s3, .op .s2 .none, .op .s4 .none], [.s2, .s3, .s4]⟩

/-- `ALG0_12` (R362): `FB; sf(pm1); out3=S3(pm1); out2=S2(pm1); out4=S4(pm1)`. -/
def routing0_12 : Routing :=
  ⟨[.op .s1 .feedback, .tap .s1, .op .s3 (.one .s1), .op .s2 (.one .s1), .op .s4 (.one .s1)], [.s2, .s3, .s4]⟩

/-- `ALG0_13` (R363): `FB; sf(pm1); out1=pm1; pm3=S3(N); out2=S2(pm3); out4=S4(N)`. -/
def routing0_13 : Routing :=
  ⟨[.op .s1 .feedback, .tap .s1, .op .s3 .none, .op .s2 (.one .s3), .op .s4 .none], [.s1, .s2, .s4]⟩

/-- `ALG0_14` (R364): `FB; sf(pm1); out1=pm1; out3=S3(pm1); pm2=S2(N); out4=S4(pm2)`. -/
def routing0_14 : Routing :=
  ⟨[.op .s1 .feedback, .tap .s1, .op .s3 (.one .s1), .op .s2 .none, .op .s4 (.one .s2)], [.s1, .s3, .s4]⟩

/-- `ALG0_15` (R365): `FB; sf(pm1); out1=pm1; out3=S3(N); out2=S2(N); out4=S4(N)`. -/
def routing0_15 : Routing :=
  ⟨[.op .s1 .feedback, .tap .s1, .op .s3 .none, .op .s2 .none, .op .s4 .none], [.s1, .s2, .s3, .s4]⟩

/-- `ALG1_0` (R366): `FB; sf(pm1); out3=S3(pm1)`. -/
def routing1_0 : Routing :=
  ⟨[.op .s1 .feedback, .tap .s1, .op .s3 (.one .s1)], [.s3]⟩

/-- `ALG1_1` (R367): `FB; pm3=S3(pm1); sf(pm3); out3=pm3`. -/
def routing1_1 : Routing :=
  ⟨[.op .s1 .feedback, .op .s3 (.one .s1), .tap .s3], [.s3]⟩

/-- `ALG1_2` (R368): `FB; sf(pm1); out1=pm1; out3=S3(N)`. -/
def routing1_2 : Routing :=
  ⟨[.op .s1 .feedback, .tap .s1, .op .s3 .none], [.s1, .s3]⟩

/-- `ALG1_3` (R369): `FB; sf(pm1); out1=pm1; out3=S3(pm1)`. -/
def routing1_3 : Routing :=
  ⟨[.op .s1 .feedback, .tap .s1, .op .s3 (.one .s1)], [.s1, .s3]⟩

/-- `ALG2_0` (R371): `FB; sf(pm1); pm3=S3(pm1); out2=S2(pm3)`. -/
def routing2_0 : Routing :=
  ⟨[.op .s1 .feedback, .tap .s1, .op .s3 (.one .s1), .op .s2 (.one .s3)], [.s2]⟩

/-- `ALG2_1` (R372): `FB; pm3=S3(pm1); sf(pm3); out2=S2(pm3)`. -/
def routing2_1 : Routing :=
  ⟨[.op .s1 .feedback, .op .s3 (.one .s1), .tap .s3, .op .s2 (.one .s3)], [.s2]⟩

/-- `ALG2_2` (R373): `FB; sf(pm1); pm3=S3(N); out2=S2(pm1+pm3)`. -/
def routing2_2 : Routing :=
  ⟨[.op .s1 .feedback, .tap .s1, .op .s3 .none, .op .s2 (.two .s1 .s3)], [.s2]⟩

/-- `ALG2_3` (R374): `FB; sf(pm1); out1=pm1; pm3=S3(N); out2=S2(pm3)`. -/
def routing2_3 : Routing :=
  ⟨[.op .s1 .feedback, .tap .s1, .op .s3 .none, .op .s2 (.one .s3)], [.s1, .s2]⟩

/-- `ALG2_4` (R375): `FB; sf(pm1); out3=S3(pm1); out2=S2(N)`. -/
def routing2_4 : Routing :=
  ⟨[.op .s1 .feedback, .tap .s1, .op .s3 (.one .s1), .op .s2 .none], [.s2, .s3]⟩

/-- `ALG2_5` (R376): `FB; pm3=S3(pm1); sf(pm3); out3=pm3; out2=S2(N)`. -/
def routing2_5 : Routing :=
  ⟨[.op .s1 .feedback, .op .s3 (.one .s1), .tap .s3, .op .s2 .none], [.s2, .s3]⟩

/-- `ALG2_6` (R377): `FB; sf(pm1); out1=pm1; out3=S3(N); out2=S2(N)`. -/
def routing2_6 : Routing :=
  ⟨[.op .s1 .feedback, .tap .s1, .op .s3 .none, .op .s2 .none], [.s1, .s2, .s3]⟩

/-- `ALG2_7` (R378): `FB; sf(pm1); out1=pm1; out3=S3(pm1); out2=S2(N)`. -/
def routing2_7 : Routing :=
  ⟨[.op .s1 .feedback, .tap .s1, .op .s3 (.one .s1), .op .s2 .none], [.s1, .s2, .s3]⟩

/-- The routing of a sync-0 algorithm number: all four bits (R330). -/
def routing0 (alg : BitVec 4) : Routing :=
  match alg.toNat with
  | 0 => routing0_0
  | 1 => routing0_1
  | 2 => routing0_2
  | 3 => routing0_3
  | 4 => routing0_4
  | 5 => routing0_5
  | 6 => routing0_6
  | 7 => routing0_7
  | 8 => routing0_8
  | 9 => routing0_9
  | 10 => routing0_10
  | 11 => routing0_11
  | 12 => routing0_12
  | 13 => routing0_13
  | 14 => routing0_14
  | _ => routing0_15

/-- The routing of a sync-1 algorithm number: `algorithm & 3` (R330). -/
def routing1 (alg : BitVec 4) : Routing :=
  match alg.toNat % 4 with
  | 0 => routing1_0
  | 1 => routing1_1
  | 2 => routing1_2
  | _ => routing1_3

/-- The routing of a sync-2 algorithm number: `algorithm & 7` (R330). -/
def routing2 (alg : BitVec 4) : Routing :=
  match alg.toNat % 8 with
  | 0 => routing2_0
  | 1 => routing2_1
  | 2 => routing2_2
  | 3 => routing2_3
  | 4 => routing2_4
  | 5 => routing2_5
  | 6 => routing2_6
  | _ => routing2_7

/-! ### Evaluation of one sample -/

/-- The bank of a place. In pair B the leader is bank 1 and the second slot bank 3 (R330, R370). -/
def seatBank : Pair → Seat → Bank
  | .a, .s1 => 0
  | .a, .s2 => 1
  | .a, .s3 => 2
  | .a, .s4 => 3
  | .b, .s1 => 1
  | .b, .s2 => 0
  | .b, .s3 => 3
  | .b, .s4 => 2

/-- The results of the four places in the current sample; 0 before a place is evaluated (R330). -/
structure Locals where
  r1 : Int
  r2 : Int
  r3 : Int
  r4 : Int
  deriving DecidableEq, Repr

/-- The results at the start of a sample (R330). -/
def Locals.zero : Locals := ⟨0, 0, 0, 0⟩

/-- The result of a place. -/
def Locals.get (l : Locals) : Seat → Int
  | .s1 => l.r1
  | .s2 => l.r2
  | .s3 => l.r3
  | .s4 => l.r4

/-- The results with that of a place replaced. -/
def Locals.put (l : Locals) (k : Seat) (v : Int) : Locals :=
  match k with
  | .s1 => { l with r1 := v }
  | .s2 => { l with r2 := v }
  | .s3 => { l with r3 := v }
  | .s4 => { l with r4 := v }

/-- The operator input a stage stands for, given the results so far (R330). -/
def Locals.input (l : Locals) : StageInput → OpInput
  | .none => .none
  | .feedback => .feedback
  | .one a => .value (l.get a)
  | .two a b => .value (l.get a + l.get b)

/-- The unit being evaluated: its group, and its pair in sync 1. -/
structure Unit4 where
  group : GroupIx
  pair : Pair
  deriving DecidableEq, Repr

/-- The slot of a place of a unit. -/
def Unit4.seat (u : Unit4) (k : Seat) : SlotIx := slotIx (seatBank u.pair k) u.group

/-- PFM is honoured for a group: `PFM_MODE = ROM_CARRIER`, `pfm = 1`, `sync` in 0..2 and group 0, 4 or 8 (R340). -/
def State.pfmHonoured (s : State) (g : GroupIx) : Bool :=
  (s.config.pfmMode == .romCarrier) && (s.group g).pfm && ((s.group g).sync != 3#2) && (g.val % 4 == 0)

/-- `op(S, inp)`: `calculate_op`, or `pfm_op` for a PFM carrier (R330). -/
def State.evalOp (s : State) (i : SlotIx) (pfm : Bool) (inp : OpInput) : Int × State :=
  if pfm then
    let (v, t, event) := pfmOp s.config s.rom (s.slot i) inp
    (v, (s.setSlot i t).loopEvent i event)
  else
    let (v, t) := calculateOp s.config (s.slot i) inp
    (v, s.setSlot i t)

/-- One stage of a routing (R330). -/
def runStage (r : Routing) (u : Unit4) (x : Locals × State) : Stage → Locals × State
  | .op k inp =>
    let (v, s') := x.2.evalOp (u.seat k) (x.2.pfmHonoured u.group && r.carriers.contains k) (x.1.input inp)
    (x.1.put k v, s')
  | .tap k => (x.1, x.2.modSlot (u.seat .s1) fun t => setFeedback t (x.1.get k))

/-- All stages of a routing, in order (R330). -/
def runStages (r : Routing) (u : Unit4) (s : State) : Locals × State := r.stages.foldl (runStage r u) (Locals.zero, s)

/-- A carrier's result added to the direct buffer at sample `i` (R333). -/
def mixCarrier (u : Unit4) (i : Nat) (l : Locals) (s : State) (k : Seat) : State :=
  s.mixDirect i (carrierPart s.config (s.slot (u.seat k)) (l.get k))

/-- One sample of a network: the stages, then the carriers' mix (R330, R333). -/
def networkSample (r : Routing) (u : Unit4) (i : Nat) (s : State) : State :=
  let (l, s') := runStages r u s
  r.carriers.foldl (mixCarrier u i l) s'

end Sys2Proof.Machine
end

