-- ==== Sys2Proof/Machine/Render.lean ====
section
/-! DEFINITION. The rendering units and the update engine (spec/49_update_engine.md R450 to R454;
spec/46_algorithms.md R370, R379, R380; spec/47_pcm_reader.md R392). -/

namespace Sys2Proof.Machine

open Sys2Proof

/-- The PCM sample tick `pcm_tick(s, i)`: fetch, envelope, LFO, mix, advance, loop check (R392). -/
def pcmTick (ix : SlotIx) (i : Nat) (s : State) : State :=
  let c := s.config
  let smp := pcmSample s.rom (s.slot ix) (sampleIndex c (s.slot ix) (s.slot ix).stepptr.toInt)
  let t := slotTick c (s.slot ix)
  let mixed := if t.accon then s.mixAcc i (accPart c t smp) else s.mixDirect i (directPart c t smp)
  let (t', event) := advanceAndLoop t
  (mixed.setSlot ix t').loopEvent ix event

/-- `n` samples of a unit, the first of them sample `i`, in order (R452). -/
def forSamples (f : Nat → State → State) : Nat → Nat → State → State
  | 0, _, s => s
  | n + 1, i, s => forSamples f n (i + 1) (f i s)

/-- The number of samples of the current call: the length of its buffers (R40). -/
def State.samples (s : State) : Nat := s.mixbuf.length

/-- A rendering unit behind its gate: all samples of the call when the gate slot is active at the start, else nothing
(R451). -/
def renderGated (gate : SlotIx) (f : Nat → State → State) (s : State) : State :=
  if (s.slot gate).active then forSamples f s.samples 0 s else s

/-- An FM network of the group being rendered, gated by its leader (R451). -/
def renderNetwork (r : Routing) (pair : Pair) (s : State) : State :=
  let u : Unit4 := ⟨s.pos.group, pair⟩
  renderGated (u.seat .s1) (networkSample r u) s

/-- A PCM voice of the group being rendered, gated by its own `active` (R379, R380). -/
def renderVoice (bank : Bank) (s : State) : State :=
  let ix := slotIx bank s.pos.group
  renderGated ix (pcmTick ix) s

/-- The four PCM voices of a sync-3 group, banks 0 to 3 (R380, R452). -/
def renderVoices (s : State) : State := renderVoice 3 (renderVoice 2 (renderVoice 1 (renderVoice 0 s)))

/-- The slot whose algorithm selects the row: bank 0, or bank 1 for pair B of sync 1 (R105, R451). -/
def State.leader (s : State) : SlotIx :=
  slotIx (if (s.group s.pos.group).sync = 1#2 ∧ s.pos.pair = .b then 1 else 0) s.pos.group

/-- The rendering dispatch word `{group.sync, leader.algorithm}` (R105). -/
def State.dispatchWord (s : State) : BitVec 6 := (s.group s.pos.group).sync ++ (s.slot s.leader).algorithm

/-- The unit that a dispatch word selects (R105, R330, R370, R380). -/
def renderSelected (a : BitVec 6) (s : State) : State :=
  let alg := a.extractLsb' 0 4
  match (a.extractLsb' 4 2).toNat with
  | 0 => renderNetwork (routing0 alg) .a s
  | 1 => renderNetwork (routing1 alg) s.pos.pair s
  | 2 => renderNetwork (routing2 alg) .a s
  | _ => renderVoices s

/-- The unit of the current position (R105). -/
def renderUnit (s : State) : State := renderSelected s.dispatchWord s

/-- The position moved to a unit of a call. -/
def State.at (s : State) (g : GroupIx) (p : Pair) : State := { s with pos := ⟨g, p⟩ }

/-- `render_group(g, N)`: the units of the group in the order of R451, nothing when it is muted (R451 to R453). -/
def renderGroup (s : State) (g : GroupIx) : State :=
  if (s.group g).muted then s
  else
    match (s.group g).sync.toNat with
    | 1 => renderUnit ((renderUnit (s.at g .a)).at g .b)
    | 2 => renderVoice 3 (renderUnit (s.at g .a))
    | _ => renderUnit (s.at g .a)

/-- The groups in rendering order (R452). -/
def allGroups : List GroupIx := [0, 1, 2, 3, 4, 5, 6, 7, 8, 9, 10, 11]

/-- The buffers of a call of `n` samples, all zero (R40, R450). -/
def State.openCall (s : State) (n : Nat) : State :=
  { s with mixbuf := List.replicate n Frame.zero, accbuf := List.replicate n Frame.zero }

/-- The end of a call: the fold, the stereo fold into the two returned arrays, and the buffers gone (R435, R436, R40). -/
def State.closeCall (s : State) : State :=
  let mix := List.zipWith foldFrame s.mixbuf s.accbuf
  { s with
    mixbuf := []
    accbuf := []
    pos := RenderPos.idle
    result := .samples (mix.map Frame.left) (mix.map Frame.right) }

/-- Every group rendered, in order (R450, R452). -/
def renderAll (s : State) : State := allGroups.foldl renderGroup s

/-- `update(N)` (R450). -/
def State.update (s : State) (n : Nat) : State := (renderAll (s.openCall n)).closeCall

end Sys2Proof.Machine
end

