-- ==== Sys2Proof/Machine/Algorithms.lean ====
section
/-! DEFINITION. The meanings of the rendering dispatch rows (spec/46_algorithms.md R350 to R380): the row's unit of the
group at the current position, behind its gate, for every sample of the current call (R105, R451; entry 5). -/

namespace Sys2Proof.Machine

open Sys2Proof

/-- `ALG0_0` (R350). -/
def execAlg0_0 (s : State) : Answer := .next (renderNetwork routing0_0 .a s)

/-- `ALG0_1` (R351). -/
def execAlg0_1 (s : State) : Answer := .next (renderNetwork routing0_1 .a s)

/-- `ALG0_2` (R352). -/
def execAlg0_2 (s : State) : Answer := .next (renderNetwork routing0_2 .a s)

/-- `ALG0_3` (R353). -/
def execAlg0_3 (s : State) : Answer := .next (renderNetwork routing0_3 .a s)

/-- `ALG0_4` (R354). -/
def execAlg0_4 (s : State) : Answer := .next (renderNetwork routing0_4 .a s)

/-- `ALG0_5` (R355). -/
def execAlg0_5 (s : State) : Answer := .next (renderNetwork routing0_5 .a s)

/-- `ALG0_6` (R356). -/
def execAlg0_6 (s : State) : Answer := .next (renderNetwork routing0_6 .a s)

/-- `ALG0_7` (R357). -/
def execAlg0_7 (s : State) : Answer := .next (renderNetwork routing0_7 .a s)

/-- `ALG0_8` (R358). -/
def execAlg0_8 (s : State) : Answer := .next (renderNetwork routing0_8 .a s)

/-- `ALG0_9` (R359). -/
def execAlg0_9 (s : State) : Answer := .next (renderNetwork routing0_9 .a s)

/-- `ALG0_10` (R360). -/
def execAlg0_10 (s : State) : Answer := .next (renderNetwork routing0_10 .a s)

/-- `ALG0_11` (R361). -/
def execAlg0_11 (s : State) : Answer := .next (renderNetwork routing0_11 .a s)

/-- `ALG0_12` (R362). -/
def execAlg0_12 (s : State) : Answer := .next (renderNetwork routing0_12 .a s)

/-- `ALG0_13` (R363). -/
def execAlg0_13 (s : State) : Answer := .next (renderNetwork routing0_13 .a s)

/-- `ALG0_14` (R364). -/
def execAlg0_14 (s : State) : Answer := .next (renderNetwork routing0_14 .a s)

/-- `ALG0_15` (R365). -/
def execAlg0_15 (s : State) : Answer := .next (renderNetwork routing0_15 .a s)

/-- `ALG1_0` (R366, R370). -/
def execAlg1_0 (_hi : BitVec 2) (s : State) : Answer := .next (renderNetwork routing1_0 s.pos.pair s)

/-- `ALG1_1` (R367, R370). -/
def execAlg1_1 (_hi : BitVec 2) (s : State) : Answer := .next (renderNetwork routing1_1 s.pos.pair s)

/-- `ALG1_2` (R368, R370). -/
def execAlg1_2 (_hi : BitVec 2) (s : State) : Answer := .next (renderNetwork routing1_2 s.pos.pair s)

/-- `ALG1_3` (R369, R370). -/
def execAlg1_3 (_hi : BitVec 2) (s : State) : Answer := .next (renderNetwork routing1_3 s.pos.pair s)

/-- `ALG2_0` (R371). -/
def execAlg2_0 (_hi : BitVec 1) (s : State) : Answer := .next (renderNetwork routing2_0 .a s)

/-- `ALG2_1` (R372). -/
def execAlg2_1 (_hi : BitVec 1) (s : State) : Answer := .next (renderNetwork routing2_1 .a s)

/-- `ALG2_2` (R373). -/
def execAlg2_2 (_hi : BitVec 1) (s : State) : Answer := .next (renderNetwork routing2_2 .a s)

/-- `ALG2_3` (R374). -/
def execAlg2_3 (_hi : BitVec 1) (s : State) : Answer := .next (renderNetwork routing2_3 .a s)

/-- `ALG2_4` (R375). -/
def execAlg2_4 (_hi : BitVec 1) (s : State) : Answer := .next (renderNetwork routing2_4 .a s)

/-- `ALG2_5` (R376). -/
def execAlg2_5 (_hi : BitVec 1) (s : State) : Answer := .next (renderNetwork routing2_5 .a s)

/-- `ALG2_6` (R377). -/
def execAlg2_6 (_hi : BitVec 1) (s : State) : Answer := .next (renderNetwork routing2_6 .a s)

/-- `ALG2_7` (R378). -/
def execAlg2_7 (_hi : BitVec 1) (s : State) : Answer := .next (renderNetwork routing2_7 .a s)

/-- `SYNC3`: the four PCM voices of the group (R380). -/
def execSync3 (_alg : BitVec 4) (s : State) : Answer := .next (renderVoices s)

end Sys2Proof.Machine
end

