-- ==== Sys2Proof/Machine/FmWrites.lean ====
section
/-! DEFINITION. The meanings of the FM parameter writes (spec/41_fm_registers.md; spec/40_port_interface.md R142). -/

namespace Sys2Proof.Machine

open Sys2Proof

/-- The banks a write of a bank reaches: the mirror targets for a synchronised parameter, else the bank alone (R142). -/
def State.targets (s : State) (sync : Bool) (bank : Bank) (g : GroupIx) : List Bank :=
  if sync then mirrorTargets (s.group g).sync bank else [bank]

/-- `write_param` on each target slot, in order (R142). -/
def writeTargets (w : SlotIx → State → State) (g : GroupIx) (banks : List Bank) (s : State) : State :=
  banks.foldl (fun s' b => w (slotIx b g) s') s

/-- `wr port, data` on an FM data port, then `fm_write(bank, g, r, data)`; a selector that `fm_tab` maps to -1 is ignored
(R140, R141, R142, R112). -/
def fmWrite (sync : Bool) (bank : BitVec 2) (sel : Nibble) (data : Byte) (w : SlotIx → State → State) (s : State) :
    State :=
  let s1 := s.setReg (PortRole.fmData bank).port data
  match fmTab sel with
  | none => s1
  | some g => writeTargets w g (s1.targets sync bank.toFin g) s1

/-- A key-on of one slot, in the order of R171. -/
def keyOnSlot (c : Config) (t : Slot) : Slot :=
  let t1 := { initLfo c { t with active := true } with stepptr := keyOnPointer c t }
  { initEnvelope c (t1.withStep c) with fbMod0 := 0#64, fbMod1 := 0#64, loopDirection := .forward }

/-- A key-off of one slot: RELEASE when it is active (R171). -/
def keyOffSlot (t : Slot) : Slot := if t.active then { t with envState := .release } else t

/-- `FM_KEY` on one slot: bit 0 of the data keys on or off (R171). -/
def putKey (d : Byte) (i : SlotIx) (s : State) : State :=
  if d.getLsbD 0 then (s.modSlot i (keyOnSlot s.config)).setEndStatus i false else s.modSlot i keyOffSlot

/-- The fields of `FM_LFOFREQ` on one slot (R172). -/
def putLfofreq (d : Byte) (t : Slot) : Slot :=
  { t with lfoFreq := d }

/-- The fields of `FM_LFOWAVE` on one slot (R173). -/
def putLfowave (d : Byte) (t : Slot) : Slot :=
  { t with lfowave := d.extractLsb' 0 2, pms := d.extractLsb' 3 3, ams := d.extractLsb' 6 2 }

/-- The fields of `FM_MULDT` on one slot (R174). -/
def putMuldt (d : Byte) (t : Slot) : Slot :=
  { t with multiple := d.extractLsb' 0 4, detune := d.extractLsb' 4 3 }

/-- The fields of `FM_TL` on one slot (R175). -/
def putTl (d : Byte) (t : Slot) : Slot :=
  { t with tl := d.extractLsb' 0 7 }

/-- The fields of `FM_AR` on one slot (R176). -/
def putAr (d : Byte) (t : Slot) : Slot :=
  { t with ar := d.extractLsb' 0 5, keyscale := d.extractLsb' 5 2 }

/-- The fields of `FM_D1R` on one slot (R177). -/
def putD1r (d : Byte) (t : Slot) : Slot :=
  { t with d1r := d.extractLsb' 0 5 }

/-- The fields of `FM_D2R` on one slot (R178). -/
def putD2r (d : Byte) (t : Slot) : Slot :=
  { t with d2r := d.extractLsb' 0 5 }

/-- The fields of `FM_RRD1L` on one slot (R179). -/
def putRrd1l (d : Byte) (t : Slot) : Slot :=
  { t with rr := d.extractLsb' 0 4, d1l := d.extractLsb' 4 4 }

/-- The fields of `FM_FNSLO` on one slot (R180). -/
def putFnslo (d : Byte) (t : Slot) : Slot :=
  { t with fns := t.fnsHi.extractLsb' 0 4 ++ d, block := t.fnsHi.extractLsb' 4 4 }

/-- The fields of `FM_FNSHI` on one slot (R181). -/
def putFnshi (d : Byte) (t : Slot) : Slot :=
  { t with fnsHi := d }

/-- The fields of `FM_WAVE` on one slot (R182). -/
def putWave (d : Byte) (t : Slot) : Slot :=
  { t with waveform := d.extractLsb' 0 3, feedback := d.extractLsb' 4 3, accon := d.getLsbD 7 }

/-- The fields of `FM_ALG` on one slot (R183). -/
def putAlg (d : Byte) (t : Slot) : Slot :=
  { t with algorithm := d.extractLsb' 0 4 }

/-- The fields of `FM_CH01` on one slot (R184). -/
def putCh01 (d : Byte) (t : Slot) : Slot :=
  { t with ch0Level := d.extractLsb' 4 4, ch1Level := d.extractLsb' 0 4 }

/-- The fields of `FM_CH23` on one slot (R185). -/
def putCh23 (d : Byte) (t : Slot) : Slot :=
  { t with ch2Level := d.extractLsb' 4 4, ch3Level := d.extractLsb' 0 4 }

/-- `FM_INVALID_SEL`: the port register only (R112). -/
def execFmInvalidSel (bank : BitVec 2) (_r _sel : Nibble) (data : Byte) (s : State) : Answer :=
  .next (s.setReg (PortRole.fmData bank).port data)

/-- `FM_KEY` (R171); synchronised (R142). -/
def execFmKey (bank : BitVec 2) (sel : Nibble) (data : Byte) (s : State) : Answer :=
  .next (fmWrite true bank sel data (putKey data) s)

/-- `FM_LFOFREQ` (R172). -/
def execFmLfofreq (bank : BitVec 2) (sel : Nibble) (data : Byte) (s : State) : Answer :=
  .next (fmWrite false bank sel data (fun i s1 => s1.modSlot i (putLfofreq data)) s)

/-- `FM_LFOWAVE` (R173). -/
def execFmLfowave (bank : BitVec 2) (sel : Nibble) (data : Byte) (s : State) : Answer :=
  .next (fmWrite false bank sel data (fun i s1 => s1.modSlot i (putLfowave data)) s)

/-- `FM_MULDT` (R174). -/
def execFmMuldt (bank : BitVec 2) (sel : Nibble) (data : Byte) (s : State) : Answer :=
  .next (fmWrite false bank sel data (fun i s1 => s1.modSlot i (putMuldt data)) s)

/-- `FM_TL` (R175). -/
def execFmTl (bank : BitVec 2) (sel : Nibble) (data : Byte) (s : State) : Answer :=
  .next (fmWrite false bank sel data (fun i s1 => s1.modSlot i (putTl data)) s)

/-- `FM_AR` (R176). -/
def execFmAr (bank : BitVec 2) (sel : Nibble) (data : Byte) (s : State) : Answer :=
  .next (fmWrite false bank sel data (fun i s1 => s1.modSlot i (putAr data)) s)

/-- `FM_D1R` (R177). -/
def execFmD1r (bank : BitVec 2) (sel : Nibble) (data : Byte) (s : State) : Answer :=
  .next (fmWrite false bank sel data (fun i s1 => s1.modSlot i (putD1r data)) s)

/-- `FM_D2R` (R178). -/
def execFmD2r (bank : BitVec 2) (sel : Nibble) (data : Byte) (s : State) : Answer :=
  .next (fmWrite false bank sel data (fun i s1 => s1.modSlot i (putD2r data)) s)

/-- `FM_RRD1L` (R179). -/
def execFmRrd1l (bank : BitVec 2) (sel : Nibble) (data : Byte) (s : State) : Answer :=
  .next (fmWrite false bank sel data (fun i s1 => s1.modSlot i (putRrd1l data)) s)

/-- `FM_FNSLO` (R180); synchronised (R142). -/
def execFmFnslo (bank : BitVec 2) (sel : Nibble) (data : Byte) (s : State) : Answer :=
  .next (fmWrite true bank sel data (fun i s1 => s1.modSlot i (putFnslo data)) s)

/-- `FM_FNSHI` (R181); synchronised (R142). -/
def execFmFnshi (bank : BitVec 2) (sel : Nibble) (data : Byte) (s : State) : Answer :=
  .next (fmWrite true bank sel data (fun i s1 => s1.modSlot i (putFnshi data)) s)

/-- `FM_WAVE` (R182). -/
def execFmWave (bank : BitVec 2) (sel : Nibble) (data : Byte) (s : State) : Answer :=
  .next (fmWrite false bank sel data (fun i s1 => s1.modSlot i (putWave data)) s)

/-- `FM_ALG` (R183); synchronised (R142). -/
def execFmAlg (bank : BitVec 2) (sel : Nibble) (data : Byte) (s : State) : Answer :=
  .next (fmWrite true bank sel data (fun i s1 => s1.modSlot i (putAlg data)) s)

/-- `FM_CH01` (R184); synchronised (R142). -/
def execFmCh01 (bank : BitVec 2) (sel : Nibble) (data : Byte) (s : State) : Answer :=
  .next (fmWrite true bank sel data (fun i s1 => s1.modSlot i (putCh01 data)) s)

/-- `FM_CH23` (R185); synchronised (R142). -/
def execFmCh23 (bank : BitVec 2) (sel : Nibble) (data : Byte) (s : State) : Answer :=
  .next (fmWrite true bank sel data (fun i s1 => s1.modSlot i (putCh23 data)) s)

/-- `FM_RESERVED` (R186). -/
def execFmReserved (bank : BitVec 2) (sel : Nibble) (data : Byte) (s : State) : Answer :=
  .next (fmWrite false bank sel data (fun _ s1 => s1) s)

end Sys2Proof.Machine
end

