-- ==== Sys2Proof/Machine/HostOps.lean ====
section
/-! DEFINITION. The meanings of the host operations (spec/49_update_engine.md R450, R462 to R464;
spec/60_exceptions.md R502, R503; spec/70_reset_and_hazards.md R540, R541). -/

namespace Sys2Proof.Machine

open Sys2Proof

/-- Every group changed by a function of its number and its old contents. -/
def State.mapGroups (s : State) (f : GroupIx → Group → Group) : State :=
  allGroups.foldl (fun s' g => s'.setGroup g (f g (s'.group g))) s

/-- The items of R540's table at their values; `ROM`, `muted` and the configuration stay. -/
def State.resetItems (s : State) : State :=
  { s.mapGroups (fun _ x => { x with sync := 0#2, pfm := false }) with
    slots := Vector.replicate 48 Slot.reset
    regs := Vector.replicate 16 0#8
    timerA := 0#10
    timerB := 0#8
    timerAPeriod := timerAPeriodOf 0#10
    timerBPeriod := timerBPeriodOf 0#8
    enable := 0#8
    status := 0#2
    irqstate := 0#2
    endStatus := 0#16
    busyFlag := false
    extAddress := 0#23
    extRw := false
    extReadlatch := 0#8 }

/-- `HOST_UPDATE` (R450). -/
def execHostUpdate (n : Nat) (s : State) : Answer := .next (s.update n)

/-- `HOST_RESET` (R540); an asserted IRQ is released. -/
def execHostReset (s : State) : Answer := .next (s.resetItems.noteIrq s.irq)

/-- `HOST_START`: the clock of the configuration, an empty `ROM`, no group muted, then `reset`; no instance when the
host's allocation fails (R541, R502; entries 10 and 11). -/
def execHostStart (clock : PosFrac) (s : State) : Answer :=
  if s.config.startAllocOk then
    .next
      (({ s with
          config := { s.config with clock := clock }
          rom := Rom.empty
          mixbuf := []
          accbuf := []
          pos := RenderPos.idle }.mapGroups fun _ x => { x with muted := false }).resetItems.noteIrq s.irq)
  else .fault .startFailed

/-- `HOST_TICK_A` (R503). -/
def execHostTickA (s : State) : Answer := .next (s.timerTick 0)

/-- `HOST_TICK_B` (R503). -/
def execHostTickB (s : State) : Answer := .next (s.timerTick 1)

/-- `HOST_ALLOC_ROM` (R463). -/
def execHostAllocRom (size : Nat) (s : State) : Answer := .next { s with rom := s.rom.alloc size }

/-- `HOST_WRITE_ROM` (R464). -/
def execHostWriteRom (offset : Nat) (bytes : List Byte) (s : State) : Answer :=
  .next { s with rom := s.rom.writeBytes offset bytes }

/-- `HOST_MUTE`: bit g of the mask mutes group g (R462). -/
def execHostMute (mask : BitVec 12) (s : State) : Answer :=
  .next (s.mapGroups fun g x => { x with muted := mask.getLsbD g.val })

end Sys2Proof.Machine
end

