-- ==== Sys2Proof/Machine/PcmWrites.lean ====
section
/-! DEFINITION. The meanings of the PCM parameter writes (spec/42_pcm_timer_registers.md R200 to R210): never mirrored. -/

namespace Sys2Proof.Machine

open Sys2Proof

/-- `wr 9, data`, then `pcm_write(s, r, data)` on the one slot of the selector; a selector that `pcm_tab` maps to -1 is
ignored (R140, R141, R200, R112). -/
def pcmWrite (sel : Nibble) (data : Byte) (f : Slot → Slot) (s : State) : State :=
  let s1 := s.setReg PortRole.pcmData.port data
  match pcmTab sel with
  | none => s1
  | some i => s1.modSlot i f

/-- The fields of `PCM_START0` on one slot (R201). -/
def putPcmStart0 (d : Byte) (t : Slot) : Slot :=
  { t with startaddr := withLow t.startaddr d }

/-- The fields of `PCM_START1` on one slot (R202). -/
def putPcmStart1 (d : Byte) (t : Slot) : Slot :=
  { t with startaddr := withMid t.startaddr d }

/-- The fields of `PCM_START2` on one slot (R203). -/
def putPcmStart2 (d : Byte) (t : Slot) : Slot :=
  { t with startaddr := withHigh t.startaddr d, altloop := d.getLsbD 7 }

/-- The fields of `PCM_END0` on one slot (R204). -/
def putPcmEnd0 (d : Byte) (t : Slot) : Slot :=
  { t with endaddr := withLow t.endaddr d }

/-- The fields of `PCM_END1` on one slot (R205). -/
def putPcmEnd1 (d : Byte) (t : Slot) : Slot :=
  { t with endaddr := withMid t.endaddr d }

/-- The fields of `PCM_END2` on one slot (R206). -/
def putPcmEnd2 (d : Byte) (t : Slot) : Slot :=
  { t with endaddr := withHigh t.endaddr d }

/-- The fields of `PCM_LOOP0` on one slot (R207). -/
def putPcmLoop0 (d : Byte) (t : Slot) : Slot :=
  { t with loopaddr := withLow t.loopaddr d }

/-- The fields of `PCM_LOOP1` on one slot (R208). -/
def putPcmLoop1 (d : Byte) (t : Slot) : Slot :=
  { t with loopaddr := withMid t.loopaddr d }

/-- The fields of `PCM_LOOP2` on one slot (R209). -/
def putPcmLoop2 (d : Byte) (t : Slot) : Slot :=
  { t with loopaddr := withHigh t.loopaddr d }

/-- The fields of `PCM_FORMAT` on one slot (R210). -/
def putPcmFormat (d : Byte) (t : Slot) : Slot :=
  { t with
    fs := d.extractLsb' 0 2
    bits := if d.getLsbD 2 then .twelve else .eight
    srcnote := d.extractLsb' 3 2
    srcb := d.extractLsb' 5 3 }

/-- `PCM_INVALID_SEL`: the port register only (R112). -/
def execPcmInvalidSel (_r _sel : Nibble) (data : Byte) (s : State) : Answer :=
  .next (s.setReg PortRole.pcmData.port data)

/-- `PCM_START0` (R201). -/
def execPcmStart0 (sel : Nibble) (data : Byte) (s : State) : Answer := .next (pcmWrite sel data (putPcmStart0 data) s)

/-- `PCM_START1` (R202). -/
def execPcmStart1 (sel : Nibble) (data : Byte) (s : State) : Answer := .next (pcmWrite sel data (putPcmStart1 data) s)

/-- `PCM_START2` (R203). -/
def execPcmStart2 (sel : Nibble) (data : Byte) (s : State) : Answer := .next (pcmWrite sel data (putPcmStart2 data) s)

/-- `PCM_END0` (R204). -/
def execPcmEnd0 (sel : Nibble) (data : Byte) (s : State) : Answer := .next (pcmWrite sel data (putPcmEnd0 data) s)

/-- `PCM_END1` (R205). -/
def execPcmEnd1 (sel : Nibble) (data : Byte) (s : State) : Answer := .next (pcmWrite sel data (putPcmEnd1 data) s)

/-- `PCM_END2` (R206). -/
def execPcmEnd2 (sel : Nibble) (data : Byte) (s : State) : Answer := .next (pcmWrite sel data (putPcmEnd2 data) s)

/-- `PCM_LOOP0` (R207). -/
def execPcmLoop0 (sel : Nibble) (data : Byte) (s : State) : Answer := .next (pcmWrite sel data (putPcmLoop0 data) s)

/-- `PCM_LOOP1` (R208). -/
def execPcmLoop1 (sel : Nibble) (data : Byte) (s : State) : Answer := .next (pcmWrite sel data (putPcmLoop1 data) s)

/-- `PCM_LOOP2` (R209). -/
def execPcmLoop2 (sel : Nibble) (data : Byte) (s : State) : Answer := .next (pcmWrite sel data (putPcmLoop2 data) s)

/-- `PCM_FORMAT` (R210). -/
def execPcmFormat (sel : Nibble) (data : Byte) (s : State) : Answer := .next (pcmWrite sel data (putPcmFormat data) s)

/-- `PCM_RESERVED`: the port register only (R200, R113). -/
def execPcmReserved (_r sel : Nibble) (data : Byte) (s : State) : Answer := .next (pcmWrite sel data (fun t => t) s)

end Sys2Proof.Machine
end

