-- ==== Sys2Proof/Machine/TimerWrites.lean ====
section
/-! DEFINITION. The meanings of the timer, group and external-memory writes (spec/42_pcm_timer_registers.md R211 to
R222). -/

namespace Sys2Proof.Machine

open Sys2Proof

/-- `regs[0xD] <- data`, the store part of every write of port 0xD (R140). -/
def storeTimer (data : Byte) (s : State) : State := s.setReg PortRole.timData.port data

/-- `GRP_SYNC`: `sync` and `pfm` of the selected group, or nothing (R211). -/
def execGrpSync (sel : Nibble) (data : Byte) (s : State) : Answer :=
  let s1 := storeTimer data s
  .next
    (match groupDecode s.config.timerGroupDecode sel with
    | none => s1
    | some g => s1.setGroup g { s1.group g with sync := data.extractLsb' 0 2, pfm := data.getLsbD 7 })

/-- `TIM_A_HI`: `timerA[9:2] <- data`, periods recomputed (R214, R212). -/
def execTimAHi (data : Byte) (s : State) : Answer :=
  .next { storeTimer data s with timerA := withTimerHigh s.timerA data }.recomputePeriods

/-- `TIM_A_LO`: `timerA[1:0] <- data[1:0]`, periods recomputed (R218, R212). -/
def execTimALo (data : Byte) (s : State) : Answer :=
  .next { storeTimer data s with timerA := withTimerLow s.timerA data }.recomputePeriods

/-- `TIM_B`: `timerB <- data`, periods recomputed (R219, R212). -/
def execTimB (data : Byte) (s : State) : Answer := .next { storeTimer data s with timerB := data }.recomputePeriods

/-- `TIM_CTRL`: the enable byte, then the two reset bits, then the IRQ level (R213). -/
def execTimCtrl (data : Byte) (s : State) : Answer :=
  .next (((({ storeTimer data s with enable := data }).timerReset 0 data).timerReset 1 data).noteIrq s.irq)

/-- `EXT_ADDR0`: `ext_address[7:0] <- data`, latch reloaded (R215, R217). -/
def execExtAddr0 (data : Byte) (s : State) : Answer :=
  .next { storeTimer data s with extAddress := withLow s.extAddress data }.reloadLatch

/-- `EXT_ADDR1`: `ext_address[15:8] <- data`, latch reloaded (R220, R217). -/
def execExtAddr1 (data : Byte) (s : State) : Answer :=
  .next { storeTimer data s with extAddress := withMid s.extAddress data }.reloadLatch

/-- `EXT_ADDR2`: `ext_address[22:16] <- data[6:0]`, `ext_rw <- data[7]`, latch reloaded (R221, R217). -/
def execExtAddr2 (data : Byte) (s : State) : Answer :=
  .next { storeTimer data s with extAddress := withHigh s.extAddress data, extRw := data.getLsbD 7 }.reloadLatch

/-- `EXT_DATA`: `ExtWrite` when `ext_rw = 0`, then the cursor advances and the latch is reloaded; `ROM` stays (R216,
R81). -/
def execExtData (data : Byte) (s : State) : Answer :=
  let s1 := storeTimer data s
  .next (if s.extRw then s1 else s1.emit (.extWrite s.extAddress data)).advanceExt

/-- `TIM_RESERVED`: the port register only (R222). -/
def execTimReserved (_sub : Byte) (data : Byte) (s : State) : Answer := .next (storeTimer data s)

end Sys2Proof.Machine
end

