-- ==== Sys2Proof/Machine/Dispatch.lean ====
section
/-! DEFINITION. The meaning of every instruction: one arm per constructor. -/

namespace Sys2Proof.Machine

open Sys2Proof

def exec (i : Instr) (s : State) : Host.Outcome State Fault Refusal :=
  match i with
  | .portLatchFm0 data => Sys2Proof.Machine.execPortLatchFm0 data s
  | .portLatchFm1 data => Sys2Proof.Machine.execPortLatchFm1 data s
  | .portLatchFm2 data => Sys2Proof.Machine.execPortLatchFm2 data s
  | .portLatchFm3 data => Sys2Proof.Machine.execPortLatchFm3 data s
  | .portLatchPcm data => Sys2Proof.Machine.execPortLatchPcm data s
  | .portLatchTim data => Sys2Proof.Machine.execPortLatchTim data s
  | .portUnusedA data => Sys2Proof.Machine.execPortUnusedA data s
  | .portUnusedB data => Sys2Proof.Machine.execPortUnusedB data s
  | .portUnusedE data => Sys2Proof.Machine.execPortUnusedE data s
  | .portUnusedF data => Sys2Proof.Machine.execPortUnusedF data s
  | .fmInvalidSel bank r sel data => Sys2Proof.Machine.execFmInvalidSel bank r sel data s
  | .fmKey bank sel data => Sys2Proof.Machine.execFmKey bank sel data s
  | .fmLfofreq bank sel data => Sys2Proof.Machine.execFmLfofreq bank sel data s
  | .fmLfowave bank sel data => Sys2Proof.Machine.execFmLfowave bank sel data s
  | .fmMuldt bank sel data => Sys2Proof.Machine.execFmMuldt bank sel data s
  | .fmTl bank sel data => Sys2Proof.Machine.execFmTl bank sel data s
  | .fmAr bank sel data => Sys2Proof.Machine.execFmAr bank sel data s
  | .fmD1r bank sel data => Sys2Proof.Machine.execFmD1r bank sel data s
  | .fmD2r bank sel data => Sys2Proof.Machine.execFmD2r bank sel data s
  | .fmRrd1l bank sel data => Sys2Proof.Machine.execFmRrd1l bank sel data s
  | .fmFnslo bank sel data => Sys2Proof.Machine.execFmFnslo bank sel data s
  | .fmFnshi bank sel data => Sys2Proof.Machine.execFmFnshi bank sel data s
  | .fmWave bank sel data => Sys2Proof.Machine.execFmWave bank sel data s
  | .fmAlg bank sel data => Sys2Proof.Machine.execFmAlg bank sel data s
  | .fmCh01 bank sel data => Sys2Proof.Machine.execFmCh01 bank sel data s
  | .fmCh23 bank sel data => Sys2Proof.Machine.execFmCh23 bank sel data s
  | .fmReserved bank sel data => Sys2Proof.Machine.execFmReserved bank sel data s
  | .pcmInvalidSel r sel data => Sys2Proof.Machine.execPcmInvalidSel r sel data s
  | .pcmStart0 sel data => Sys2Proof.Machine.execPcmStart0 sel data s
  | .pcmStart1 sel data => Sys2Proof.Machine.execPcmStart1 sel data s
  | .pcmStart2 sel data => Sys2Proof.Machine.execPcmStart2 sel data s
  | .pcmEnd0 sel data => Sys2Proof.Machine.execPcmEnd0 sel data s
  | .pcmEnd1 sel data => Sys2Proof.Machine.execPcmEnd1 sel data s
  | .pcmEnd2 sel data => Sys2Proof.Machine.execPcmEnd2 sel data s
  | .pcmLoop0 sel data => Sys2Proof.Machine.execPcmLoop0 sel data s
  | .pcmLoop1 sel data => Sys2Proof.Machine.execPcmLoop1 sel data s
  | .pcmLoop2 sel data => Sys2Proof.Machine.execPcmLoop2 sel data s
  | .pcmFormat sel data => Sys2Proof.Machine.execPcmFormat sel data s
  | .pcmReserved r sel data => Sys2Proof.Machine.execPcmReserved r sel data s
  | .grpSync sel data => Sys2Proof.Machine.execGrpSync sel data s
  | .timAHi data => Sys2Proof.Machine.execTimAHi data s
  | .timALo data => Sys2Proof.Machine.execTimALo data s
  | .timB data => Sys2Proof.Machine.execTimB data s
  | .timCtrl data => Sys2Proof.Machine.execTimCtrl data s
  | .extAddr0 data => Sys2Proof.Machine.execExtAddr0 data s
  | .extAddr1 data => Sys2Proof.Machine.execExtAddr1 data s
  | .extAddr2 data => Sys2Proof.Machine.execExtAddr2 data s
  | .extData data => Sys2Proof.Machine.execExtData data s
  | .timReserved sub data => Sys2Proof.Machine.execTimReserved sub data s
  | .readStatus0 => Sys2Proof.Machine.execReadStatus0 s
  | .readStatus1 => Sys2Proof.Machine.execReadStatus1 s
  | .readExtdata => Sys2Proof.Machine.execReadExtdata s
  | .readUndoc port => Sys2Proof.Machine.execReadUndoc port s
  | .hostUpdate n => Sys2Proof.Machine.execHostUpdate n s
  | .hostReset => Sys2Proof.Machine.execHostReset s
  | .hostStart clock => Sys2Proof.Machine.execHostStart clock s
  | .hostTickA => Sys2Proof.Machine.execHostTickA s
  | .hostTickB => Sys2Proof.Machine.execHostTickB s
  | .hostAllocRom size => Sys2Proof.Machine.execHostAllocRom size s
  | .hostWriteRom offset bytes => Sys2Proof.Machine.execHostWriteRom offset bytes s
  | .hostMute mask => Sys2Proof.Machine.execHostMute mask s
  | .alg0_0 => Sys2Proof.Machine.execAlg0_0 s
  | .alg0_1 => Sys2Proof.Machine.execAlg0_1 s
  | .alg0_2 => Sys2Proof.Machine.execAlg0_2 s
  | .alg0_3 => Sys2Proof.Machine.execAlg0_3 s
  | .alg0_4 => Sys2Proof.Machine.execAlg0_4 s
  | .alg0_5 => Sys2Proof.Machine.execAlg0_5 s
  | .alg0_6 => Sys2Proof.Machine.execAlg0_6 s
  | .alg0_7 => Sys2Proof.Machine.execAlg0_7 s
  | .alg0_8 => Sys2Proof.Machine.execAlg0_8 s
  | .alg0_9 => Sys2Proof.Machine.execAlg0_9 s
  | .alg0_10 => Sys2Proof.Machine.execAlg0_10 s
  | .alg0_11 => Sys2Proof.Machine.execAlg0_11 s
  | .alg0_12 => Sys2Proof.Machine.execAlg0_12 s
  | .alg0_13 => Sys2Proof.Machine.execAlg0_13 s
  | .alg0_14 => Sys2Proof.Machine.execAlg0_14 s
  | .alg0_15 => Sys2Proof.Machine.execAlg0_15 s
  | .alg1_0 hi => Sys2Proof.Machine.execAlg1_0 hi s
  | .alg1_1 hi => Sys2Proof.Machine.execAlg1_1 hi s
  | .alg1_2 hi => Sys2Proof.Machine.execAlg1_2 hi s
  | .alg1_3 hi => Sys2Proof.Machine.execAlg1_3 hi s
  | .alg2_0 hi => Sys2Proof.Machine.execAlg2_0 hi s
  | .alg2_1 hi => Sys2Proof.Machine.execAlg2_1 hi s
  | .alg2_2 hi => Sys2Proof.Machine.execAlg2_2 hi s
  | .alg2_3 hi => Sys2Proof.Machine.execAlg2_3 hi s
  | .alg2_4 hi => Sys2Proof.Machine.execAlg2_4 hi s
  | .alg2_5 hi => Sys2Proof.Machine.execAlg2_5 hi s
  | .alg2_6 hi => Sys2Proof.Machine.execAlg2_6 hi s
  | .alg2_7 hi => Sys2Proof.Machine.execAlg2_7 hi s
  | .sync3 alg => Sys2Proof.Machine.execSync3 alg s

end Sys2Proof.Machine
end

