-- ==== Sys2Proof/Machine/Fetch.lean ====
section
/-! DEFINITION. The packet of a queued operation (spec/30_encoding.md R101, R103, R105), and the placing of one packet as
the next operation. -/

namespace Sys2Proof.Machine

open Sys2Proof

/-- An odd port, which delivers data; an even one latches a sub-address (R100). -/
def oddPort (port : Port) : Bool := port.getLsbD 0

/-- The effective operation word of `wr port, data`: an odd port takes the sub-address latched in the register before it; the
sub-address of an even port is a don't-care, and 0 stands for it (R101; entry 15). -/
def State.effectiveWord (s : State) (port : Port) (data : Byte) : OpWord :=
  if oddPort port then port ++ s.reg (port - 1#4) ++ data else port ++ 0#8 ++ data

/-- The packet of an operation of the host's queue. -/
def State.packetOf (s : State) : HostOp → Packet
  | .write port data => .pw (s.effectiveWord port data)
  | .read port => .pr port
  | .call c => .ho c
  | .dispatch => .al s.dispatchWord

/-- The state with a packet as its next operation: a write of an odd port finds its sub-address latched; a dispatch word is the sync mode
and the algorithm of group 0, with one sample to render (entry 4, entry 5). -/
def State.queueWord (s : State) : Packet → State
  | .pw w =>
    let queued := { s with input := HostOp.write (wordPort w) (wordData w) :: s.input }
    if oddPort (wordPort w) then queued.setReg (wordPort w - 1#4) (w.extractLsb' 8 8) else queued
  | .pr port => { s with input := .read port :: s.input }
  | .ho c => { s with input := .call c :: s.input }
  | .al a =>
    let placed :=
      { s with
        input := .dispatch :: s.input
        pos := RenderPos.idle
        mixbuf := [Frame.zero]
        accbuf := [Frame.zero] }
    (placed.setGroup 0 { placed.group 0 with sync := a.extractLsb' 4 2 }).modSlot 0 fun t =>
      { t with algorithm := a.extractLsb' 0 4 }

end Sys2Proof.Machine
end

