-- ==== Sys2Proof/Machine/Step.lean ====
section
/-! DEFINITION. One step of the machine: the oldest operation of the host's queue is served; with nothing queued the core
waits (spec/20_memory.md R89; spec/70_reset_and_hazards.md R543; entry 4). -/

namespace Sys2Proof.Machine

open Sys2Proof

/-- One step: fetch, decode, execute. -/
def step (s : State) : Host.Outcome State Fault Refusal :=
  match s.input with
  | [] => .next s
  | op :: rest => exec (decode (s.packetOf op)) { s with input := rest }

/-- The state whose next step runs the instruction of an opcode-table word (entry 4, entry 5). -/
def State.withFetchWord (s : State) (nbits w : Nat) : State :=
  match formatOfBits nbits with
  | none => s
  | some f => s.queueWord (f.packet w)

end Sys2Proof.Machine
end

