-- ==== Sys2Proof/Safety.lean ====
section
/-! DEFINITION. The words that claims about the machine use: the numbering of slots and the reach of a write as the rules
put them, what a write leaves unchanged, a slot right after a key-on, the sequences of the algorithm rows, what counts as
a good configuration, a good state and a safe step. -/

namespace Sys2Proof

/-- The real number a positive fraction stands for. -/
def PosFrac.value (x : PosFrac) : ℚ := x.num / x.den

/-- The real number a non-negative fraction stands for. -/
def NonnegFrac.value (x : NonnegFrac) : ℚ := x.num / x.den

end Sys2Proof

namespace Sys2Proof.Machine

open Sys2Proof

/-! ### Numbering and reach of a write -/

/-- The bank of a slot: `s / 12` (R30). -/
def bankOf (i : SlotIx) : Nat := i.val / 12

/-- The group of a slot: `s mod 12` (R30). -/
def groupOf (i : SlotIx) : Nat := i.val % 12

/-- `3*n[3:2] + n[1:0]`: the group a valid FM selector names (R106). -/
def selectedGroup (n : Nibble) : Nat := 3 * (n.toNat / 4) + n.toNat % 4

/-- The slot an FM data write names: `12 * bank + fm_tab[n]` (R30, R107). -/
def namesFmSlot (bank : BitVec 2) (n : Nibble) (i : SlotIx) : Bool := i.val == 12 * bank.toNat + selectedGroup n

/-- The slot a PCM data write names: `4 * fm_tab[n]` (R108). -/
def namesPcmSlot (n : Nibble) (i : SlotIx) : Bool := i.val == 4 * selectedGroup n

/-- Whether a synchronised write from a bank reaches a bank of the same group, under a sync mode (R142). -/
def mirrored (sync bank b : Nat) : Bool :=
  if sync = 0 ∧ bank = 0 then true
  else if sync = 1 ∧ bank ≤ 1 then b % 2 == bank
  else if sync = 2 ∧ bank = 0 then decide (b ≤ 2)
  else b == bank

/-- The slots a synchronised FM data write reaches, in a state (R142). -/
def reachesFmSlot (s : State) (bank : BitVec 2) (n : Nibble) (i : SlotIx) : Bool :=
  groupOf i == selectedGroup n &&
    mirrored (s.group ⟨i.val % 12, Nat.mod_lt _ (by omega)⟩).sync.toNat bank.toNat (bankOf i)

/-- The FM data port of a bank: `2 * bank + 1` (R102). -/
def fmDataPort (bank : BitVec 2) : Port := BitVec.ofNat 4 (2 * bank.toNat + 1)

/-- `regs[port]` holds the byte and every other port register stays (R140). -/
def StoresByte (port : Port) (data : Byte) (s t : State) : Prop :=
  ∀ p : Port, t.reg p = if p = port then data else s.reg p

/-- `d[hi:lo]` as a number of `hi - lo + 1` bits (R16). -/
def bits (d : Byte) (hi lo : Nat) : BitVec (hi - lo + 1) := BitVec.ofNat (hi - lo + 1) (d.toNat / 2 ^ lo)

/-- An instruction that runs and only stores its byte in a port register (R140, R112). -/
def OnlyStores (port : Port) (data : Byte) (i : Instr) (s : State) : Prop :=
  ∃ t, exec i s = .next t ∧ { t with regs := s.regs } = s ∧ StoresByte port data s t

/-- The whole effect of a write that changes slots: the port register, the slots it hits, and nothing else. -/
def WritesSlots (port : Port) (data : Byte) (hit : SlotIx → Bool) (f : Slot → Slot) (s t : State) : Prop :=
  { t with slots := s.slots, regs := s.regs } = s ∧ StoresByte port data s t ∧
    ∀ i : SlotIx, t.slot i = if hit i then f (s.slot i) else s.slot i

/-- An instruction that runs and whose whole effect is a write of slots. -/
def RunsWriting (port : Port) (data : Byte) (hit : SlotIx → Bool) (f : Slot → Slot) (i : Instr) (s : State) : Prop :=
  ∃ t, exec i s = .next t ∧ WritesSlots port data hit f s t

/-- The slot's register-backed fields (R33) are those of another slot: only the dynamic state of R35 may differ. -/
def SameRegisters (t u : Slot) : Prop :=
  { u with
    active := t.active, volume := t.volume, envState := t.envState
    envStepAttack := t.envStepAttack, envStepDecay1 := t.envStepDecay1
    envStepDecay2 := t.envStepDecay2, envStepRelease := t.envStepRelease
    stepptr := t.stepptr, step := t.step, fbMod0 := t.fbMod0, fbMod1 := t.fbMod1
    lfoPhase := t.lfoPhase, lfoStep := t.lfoStep, lfoAmplitude := t.lfoAmplitude, lfoPhasemod := t.lfoPhasemod
    loopDirection := t.loopDirection } = t

/-- The PCM register fields of a slot are those of another slot (R34). -/
def SamePcmFields (t u : Slot) : Prop :=
  u.startaddr = t.startaddr ∧ u.endaddr = t.endaddr ∧ u.loopaddr = t.loopaddr ∧ u.altloop = t.altloop ∧
    u.bits = t.bits ∧ u.fs = t.fs ∧ u.srcnote = t.srcnote ∧ u.srcb = t.srcb

/-- `env_step` of a rate: 0 below 4, else `trunc(delta / lut[r] * 65536)`, the duration scaled by `STD_CLOCK / CLOCK`
(R236, R541). -/
def sweepOf (c : Config) (r delta : Nat) (lut : Nat → PosFrac) : Nat :=
  if r < 4 then 0 else ⌊(delta : ℚ) / ((lut r).value * (stdClock.value / c.clock.value)) * 65536⌋₊

/-- `env_step[e]` as key-on computes it: `delta` is 255, or `255 - decay_level` in DECAY1; attack and release read
`LUT_AR`, the decays `LUT_DC` (R236). -/
def keyOnEnvStep (c : Config) (t : Slot) : EnvState → Nat
  | .attack => sweepOf c (effectiveRate c t .attack) 255 (lutAR c)
  | .decay1 => sweepOf c (effectiveRate c t .decay1) (t.d1l.toNat * 16) (lutDC c)
  | .decay2 => sweepOf c (effectiveRate c t .decay2) 255 (lutDC c)
  | .release => sweepOf c (effectiveRate c t .release) 255 (lutAR c)

/-- A slot right after a key-on, from the slot before it (R171, R275, R285, R236, R391): every item of the dynamic
state, the register-backed fields as before. The LFO step is `trunc(256 * LUT_LFO[lfoFreq] / SAMPLE_RATE * 256)`, the
frequency scaled by `CLOCK / STD_CLOCK` (R275, R541). -/
def KeyedOn (c : Config) (t u : Slot) : Prop :=
  SameRegisters t u ∧ u.active = true ∧
    u.lfoPhase = 0#32 ∧ 
    u.lfoStep = BitVec.ofNat 32
      ⌊256 * ((lutLFO c t.lfoFreq).value * (c.clock.value / stdClock.value)) / c.sampleRate.value * 256⌋₊ ∧
    u.lfoAmplitude = alfoAt c t.lfowave 0 ∧
    u.lfoPhasemod = plfoAt c t.lfowave t.pms 0 ∧
    u.stepptr = (if c.pcmAddrMode = .absolute ∧ t.waveform = 7#3 then BitVec.ofNat 64 (t.startaddr.toNat * 65536)
      else 0#64) ∧
    u.step = calcStep c { t with lfoPhasemod := plfoAt c t.lfowave t.pms 0 } ∧
    u.envStepAttack = keyOnEnvStep c t .attack ∧ u.envStepDecay1 = keyOnEnvStep c t .decay1 ∧
    u.envStepDecay2 = keyOnEnvStep c t .decay2 ∧ u.envStepRelease = keyOnEnvStep c t .release ∧
    u.volume = 95 * 65536 ∧ u.envState = .attack ∧
    u.fbMod0 = 0#64 ∧ u.fbMod1 = 0#64 ∧ u.loopDirection = .forward

/-! ### The sequences of the algorithm rows -/

/-- The carriers of a group read the PCM memory: `PFM_MODE = ROM_CARRIER`, `pfm = 1`, `sync` in 0..2 and group 0, 4 or 8
(R340). -/
abbrev PfmCarriers (s : State) (g : GroupIx) : Prop :=
  s.config.pfmMode = .romCarrier ∧ (s.group g).pfm = true ∧ (s.group g).sync.toNat ≤ 2 ∧ g ∈ [0, 4, 8]

/-- `v <- op(S, inp)`, then the rest of the sequence: `pfm_op` for a PFM carrier, whose loop event sets the end marker,
else `calculate_op` (R330, R340, R341). -/
def callOp (u : Unit4) (carrier : Bool) (k : Seat) (inp : OpInput) (rest : Int → State → State) (s : State) : State :=
  if carrier = true ∧ PfmCarriers s u.group then
    let r := pfmOp s.config s.rom (s.slot (u.seat k)) inp
    rest r.1 ((s.setSlot (u.seat k) r.2.1).loopEvent (u.seat k) r.2.2)
  else
    let r := calculateOp s.config (s.slot (u.seat k)) inp
    rest r.1 (s.setSlot (u.seat k) r.2)

/-- `set_feedback(S1, v)`, then the rest of the sequence (R304, R330). -/
def tapFeedback (u : Unit4) (v : Int) (rest : State → State) (s : State) : State :=
  rest (s.modSlot (u.seat .s1) fun t => setFeedback t v)

/-- `mixbuf[4*i + c] += (out * attn[S.ch_c_level]) >> 16` for the four channels (R333). -/
def mixOut (u : Unit4) (i : Nat) (k : Seat) (out : Int) (s : State) : State :=
  s.mixDirect i fun ch => out * attnAt s.config ((s.slot (u.seat k)).level ch) / 65536

/-- A unit of the group being rendered: nothing when its gate is 0 at the start, else `f` for the samples `0..N-1` in
order (R451, R452). -/
def gatedUnit (gate : SlotIx) (f : Nat → State → State) (s : State) : State :=
  if (s.slot gate).active then (List.range s.mixbuf.length).foldl (fun s' i => f i s') s else s

/-- The row that the current dispatch word selects, run (R105). -/
def runRow (s : State) : State :=
  match exec (decode (.al s.dispatchWord)) s with
  | .next t => t
  | .fault _ => s
  | .refused _ => s

/-- The units of a group, in the order of R451: the row of the leader; in sync 1 also the row of bank 1, as pair B; in
sync 2 also the PCM voice of bank 3; nothing for a muted group (R451, R452, R453). -/
def renderRows (s : State) (g : GroupIx) : State :=
  if (s.group g).muted then s
  else if (s.group g).sync = 1#2 then runRow ((runRow (s.at g .a)).at g .b)
  else if (s.group g).sync = 2#2 then gatedUnit (slotIx 3 g) (pcmTick (slotIx 3 g)) (runRow (s.at g .a))
  else runRow (s.at g .a)

/-! ### Good configurations, good states, safe steps -/

/-- The constraints the spec puts on the table parameters that gains are read from (R273, R274, R432) and that are not
built into the reading of the tables: the ranges, and that the attenuation rises with the level. -/
def GoodConfig (c : Config) : Prop :=
  (∀ p ∈ c.alfo, p.2 ≤ 65536) ∧ (∀ p ∈ c.alfoGain, p.2 ≤ 65536) ∧ (∀ p ∈ c.attn, p.2 ≤ 65536) ∧
    ∀ k : Fin 15, attnAt c (BitVec.ofNat 4 (k.val + 1)) ≤ attnAt c (BitVec.ofNat 4 k.val)

/-- The ranges of a slot's dynamic state (R35, R36). -/
def GoodSlot (t : Slot) : Prop := 0 ≤ t.volume ∧ t.volume ≤ 255 * 65536 ∧ t.lfoAmplitude ≤ 65536

/-- A signed 18-bit value in a channel (R428). -/
def Eighteen (x : BitVec 32) : Prop := -131072 ≤ x.toInt ∧ x.toInt ≤ 131071

/-- The four channels of a frame of the ACC buffer (R428). -/
def GoodAccFrame (f : Frame) : Prop := Eighteen f.ch0 ∧ Eighteen f.ch1 ∧ Eighteen f.ch2 ∧ Eighteen f.ch3

/-- What every step keeps: the canonical form of the PCM memory, the ranges of the slots (R35, R36), the PCM fields that
no write reaches at their reset values (R34), the published periods (R212), the busy flag (R153, R557), the unused end
markers (R151), the 18-bit range of the ACC buffer (R428) and the constraints on the parameters. -/
def GoodState (s : State) : Prop :=
  s.rom.wf = true ∧ GoodConfig s.config ∧ (∀ i : SlotIx, GoodSlot (s.slot i)) ∧
    (∀ i : SlotIx, i.val % 4 ≠ 0 → SamePcmFields Slot.reset (s.slot i)) ∧
    s.timerAPeriod = 384 * (1024 - s.timerA.toNat) ∧ s.timerBPeriod = 384 * 16 * (256 - s.timerB.toNat) ∧
    s.busyFlag = false ∧ (∀ k : Nat, 12 ≤ k → s.endStatus.getLsbD k = false) ∧
    ∀ f ∈ s.accbuf, GoodAccFrame f

/-- A step that does not stop. -/
def StepGoesOn (s : State) : Prop := ∃ t, step s = .next t

end Sys2Proof.Machine
end

