-- ==== Sys2Proof/Certificates/Slice0/Obligations.lean ====
section
/-! DEFINITION. The statements for the provers. Each says what the machine does, in the words of Sys2Proof/Safety.lean; a
docstring names the rules it formalises and, where a clause rests on a decision of the spec or on a choice of this model,
says so. -/

open Sys2Proof Sys2Proof.Machine

/-! ### Encoding -/

/-- Decoding the word of a well-formed instruction gives the instruction back, as a packet and as the word of the opcode
table, with every operand at every value its field admits (R101, R103, R105, R106 to R110). -/
def Obligations.DecodingAnEncodedInstructionGivesItBack : Prop :=
  ∀ i : Instr, i.wf = true →
    decode (encode i) = i ∧
      (∀ w, encode i = .pw w → decodeTableWord 20 w.toNat = some i) ∧
      (∀ a, encode i = .al a → decodeTableWord 6 a.toNat = some i) ∧
      ∀ p, encode i = .pr p → decodeTableWord 4 p.toNat = some i

/-- Every packet decodes to a well-formed instruction, and that instruction's encoding is the packet: every word of a data
port, every read and every dispatch word is the one word of its instruction, a word of a latch or unused port is but for
its sub-address field, which the row does not look at (R101, R112, R113, R114; entry 15). -/
def Obligations.EncodingADecodedWordGivesTheWord : Prop :=
  (∀ p : Packet, (decode p).wf = true) ∧
    (∀ w : OpWord, wordPort w ∈ [0x1#4, 0x3#4, 0x5#4, 0x7#4, 0x9#4, 0xD#4] → encode (decode (.pw w)) = .pw w) ∧
    (∀ w : OpWord, wordPort w ∉ [0x1#4, 0x3#4, 0x5#4, 0x7#4, 0x9#4, 0xD#4] →
      encode (decode (.pw w)) = .pw (wordPort w ++ 0#8 ++ wordData w)) ∧
    (∀ p : Port, encode (decode (.pr p)) = .pr p) ∧
    (∀ a : BitVec 6, encode (decode (.al a)) = .al a) ∧
    ∀ c : HostCall, encode (decode (.ho c)) = .ho c

/-- A few words written out from the rows of the opcode table decode to their rows (R101, R105). -/
def Obligations.WordsOfTheTableDecodeToTheirRows : Prop :=
  decodeTableWord 20 0b00000000000000010000 = some (.portLatchFm0 0x10#8) ∧
    decodeTableWord 20 0b00110100010101111111 = some (.fmTl 1#2 5#4 0x7F#8) ∧
    decodeTableWord 20 0b10011001000100101100 = some (.pcmFormat 1#4 0x2C#8) ∧
    decodeTableWord 20 0b11010001001100010000 = some (.timCtrl 0x10#8) ∧
    decodeTableWord 20 0b00010101001100000000 = some (.fmInvalidSel 0#2 5#4 3#4 0#8) ∧
    decodeTableWord 4 0b0010 = some .readExtdata ∧
    decodeTableWord 6 0b100101 = some (.alg2_5 0#1)

/-! ### Steps -/

/-- A step serves the oldest queued operation: it is `exec` of the instruction that the operation's packet decodes to, on
the state with that operation taken off the queue; with nothing queued the core waits and nothing changes. The packet of a
write of an odd port is `{port, regs[port - 1], data}`, that of a write of an even port has any sub-address, that of a read
is its port, that of a host operation is itself, that of a dispatch is `{group.sync, leader.algorithm}` (R89, R101, R103,
R105, R141, R543; the queue is the model's own, entry 4). -/
def Obligations.StepRunsTheDecodedInstruction : Prop :=
  (∀ s : State, s.input = [] → step s = .next s) ∧
    (∀ (s : State) (op : HostOp) (rest : List HostOp), s.input = op :: rest →
      step s = exec (decode (s.packetOf op)) { s with input := rest }) ∧
    (∀ (s : State) (p : Port) (d : Byte), p.toNat % 2 = 1 →
      s.packetOf (.write p d) = .pw (p ++ s.reg (p - 1#4) ++ d)) ∧
    (∀ (s : State) (p : Port) (d : Byte), p.toNat % 2 = 0 →
      ∃ sub : Byte, s.packetOf (.write p d) = .pw (p ++ sub ++ d)) ∧
    (∀ (s : State) (p : Port), s.packetOf (.read p) = .pr p) ∧
    (∀ (s : State) (c : HostCall), s.packetOf (.call c) = .ho c) ∧
    ∀ s : State, s.packetOf .dispatch =
      .al ((s.group s.pos.group).sync ++
        (s.slot (slotIx (if (s.group s.pos.group).sync = 1#2 ∧ s.pos.pair = .b then 1 else 0) s.pos.group)).algorithm)

/-- Every entry point completes: nothing faults or is refused, for any state and operands, but `start` where the host's
allocation fails, which is the fault `startFailed` (R500, R502; the outcome of a failed `start` is decision D39). -/
def Obligations.OnlyAFailedStartStops : Prop :=
  (∀ (i : Instr) (s : State), (∀ c, i = .hostStart c → s.config.startAllocOk = true) → ∃ t, exec i s = .next t) ∧
    ∀ (c : PosFrac) (s : State), s.config.startAllocOk = false → exec (.hostStart c) s = .fault .startFailed

/-! ### Port writes that only store, and reads -/

/-- A write of an even port or of an unused port stores the byte in its port register and changes nothing else; so does a
data write of a reserved parameter: FM parameter 0xF, PCM parameters 0xA to 0xF, timer sub-addresses 0x18 to 0xFF (R140).
Derived: the treatment of the reserved parameters and of ports 0xB, 0xE and 0xF is the spec's decisions D2, D3, D7 and
D42. -/
def Obligations.LatchUnusedAndReservedWritesOnlyStore : Prop :=
  (∀ (d : Byte) (s : State),
    OnlyStores 0x0#4 d (.portLatchFm0 d) s ∧ OnlyStores 0x2#4 d (.portLatchFm1 d) s ∧
      OnlyStores 0x4#4 d (.portLatchFm2 d) s ∧ OnlyStores 0x6#4 d (.portLatchFm3 d) s ∧
      OnlyStores 0x8#4 d (.portLatchPcm d) s ∧ OnlyStores 0xC#4 d (.portLatchTim d) s ∧
      OnlyStores 0xA#4 d (.portUnusedA d) s ∧ OnlyStores 0xB#4 d (.portUnusedB d) s ∧
      OnlyStores 0xE#4 d (.portUnusedE d) s ∧ OnlyStores 0xF#4 d (.portUnusedF d) s) ∧
    (∀ (bank : BitVec 2) (n : Nibble) (d : Byte) (s : State), selectorValid n = true →
      OnlyStores (fmDataPort bank) d (.fmReserved bank n d) s) ∧
    (∀ (r n : Nibble) (d : Byte) (s : State), 10 ≤ r.toNat → selectorValid n = true →
      OnlyStores 0x9#4 d (.pcmReserved r n d) s) ∧
    ∀ (sub d : Byte) (s : State), 0x18 ≤ sub.toNat → OnlyStores 0xD#4 d (.timReserved sub d) s

/-- A data write of an FM or PCM port through a selector that `fm_tab` or `pcm_tab` maps to -1 (`n[1:0] = 3`) changes no
state other than `regs[port]`, whatever its parameter (R112). -/
def Obligations.InvalidSelectorWritesAreIgnored : Prop :=
  (∀ (bank : BitVec 2) (r n : Nibble) (d : Byte) (s : State), n.toNat % 4 = 3 →
    OnlyStores (fmDataPort bank) d (.fmInvalidSel bank r n d) s) ∧
    (∀ (r n : Nibble) (d : Byte) (s : State), n.toNat % 4 = 3 → OnlyStores 0x9#4 d (.pcmInvalidSel r n d) s) ∧
    ∀ (w : OpWord) (s : State), wordPort w ∈ [0x1#4, 0x3#4, 0x5#4, 0x7#4, 0x9#4] → (wordSel w).toNat % 4 = 3 →
      OnlyStores (wordPort w) (wordData w) (decode (.pw w)) s

/-- A read of a port other than 0, 1 and 2 returns 0xFF and changes no state (R154). The field `result`, where a byte is
returned, is the model's own (entry 7). -/
def Obligations.UndocumentedReadsReturnAllOnes : Prop :=
  ∀ (s : State) (p : Port), p ∉ [0#4, 1#4, 2#4] →
    decode (.pr p) = .readUndoc p ∧ exec (decode (.pr p)) s = .next { s with result := .byte 0xFF#8 }

/-- A read of port 0 returns the busy flag, end markers 0 to 3 and the timer status in bits 7, 6..3 and 1..0, with bit 2
reading 0; a read of port 1 returns end markers 4 to 11; neither changes any state. A read of port 2 returns the latch,
whatever `ext_rw` holds; then the cursor advances modulo 2^23 and the latch holds the byte at the new cursor, and nothing
else changes (R150, R151, R152; that the status reads change no state is decision D11, the reload decision D9). -/
def Obligations.DefinedReadsReturnTheirBytes : Prop :=
  ∀ s : State,
    (∃ v : Byte, exec .readStatus0 s = .next { s with result := .byte v } ∧
      v.getLsbD 7 = s.busyFlag ∧ (∀ k, k < 4 → v.getLsbD (3 + k) = s.endStatus.getLsbD k) ∧
      v.getLsbD 2 = false ∧ v.getLsbD 1 = s.status.getLsbD 1 ∧ v.getLsbD 0 = s.status.getLsbD 0) ∧
    (∃ v : Byte, exec .readStatus1 s = .next { s with result := .byte v } ∧
      ∀ k, k < 8 → v.getLsbD k = s.endStatus.getLsbD (4 + k)) ∧
    ∃ t, exec .readExtdata s = .next t ∧
      { t with extAddress := s.extAddress, extReadlatch := s.extReadlatch, result := s.result } = s ∧
      t.result = .byte s.extReadlatch ∧ t.extAddress.toNat = (s.extAddress.toNat + 1) % 8388608 ∧
      t.extReadlatch = memRead s.rom t.extAddress.toNat

/-! ### FM parameter writes -/

/-- The FM parameters that are not synchronised write their fields on the one slot `12 * bank + fm_tab[n]`, and nothing
else but the port register changes (R142, R172 to R179, R182). The layout is the spec's decision D2. -/
def Obligations.UnsynchronisedParametersWriteOneSlot : Prop :=
  ∀ (bank : BitVec 2) (n : Nibble) (d : Byte) (s : State), selectorValid n = true →
    RunsWriting (fmDataPort bank) d (namesFmSlot bank n) (fun t => { t with lfoFreq := d }) (.fmLfofreq bank n d) s ∧
    RunsWriting (fmDataPort bank) d (namesFmSlot bank n)
      (fun t => { t with lfowave := bits d 1 0, pms := bits d 5 3, ams := bits d 7 6 }) (.fmLfowave bank n d) s ∧
    RunsWriting (fmDataPort bank) d (namesFmSlot bank n)
      (fun t => { t with multiple := bits d 3 0, detune := bits d 6 4 }) (.fmMuldt bank n d) s ∧
    RunsWriting (fmDataPort bank) d (namesFmSlot bank n) (fun t => { t with tl := bits d 6 0 }) (.fmTl bank n d) s ∧
    RunsWriting (fmDataPort bank) d (namesFmSlot bank n)
      (fun t => { t with ar := bits d 4 0, keyscale := bits d 6 5 }) (.fmAr bank n d) s ∧
    RunsWriting (fmDataPort bank) d (namesFmSlot bank n) (fun t => { t with d1r := bits d 4 0 }) (.fmD1r bank n d) s ∧
    RunsWriting (fmDataPort bank) d (namesFmSlot bank n) (fun t => { t with d2r := bits d 4 0 }) (.fmD2r bank n d) s ∧
    RunsWriting (fmDataPort bank) d (namesFmSlot bank n)
      (fun t => { t with rr := bits d 3 0, d1l := bits d 7 4 }) (.fmRrd1l bank n d) s ∧
    RunsWriting (fmDataPort bank) d (namesFmSlot bank n)
      (fun t => { t with waveform := bits d 2 0, feedback := bits d 6 4, accon := d.getLsbD 7 }) (.fmWave bank n d) s

/-- The synchronised FM parameters other than the key write their fields on every slot that the sync mode of the group
mirrors to, all in the one step, and nothing else but the port register changes (R142, R143, R180, R181, R183 to R185). A
write of 0x9 commits the high byte that the slot itself has latched. The layout and the commit are the spec's decisions D2
and D4, the members of the sync-2 set its decision D13. -/
def Obligations.SynchronisedParametersWriteEverySibling : Prop :=
  ∀ (bank : BitVec 2) (n : Nibble) (d : Byte) (s : State), selectorValid n = true →
    RunsWriting (fmDataPort bank) d (reachesFmSlot s bank n)
      (fun t => { t with fns := BitVec.ofNat 12 (t.fnsHi.toNat % 16 * 256 + d.toNat), block := bits t.fnsHi 7 4 })
      (.fmFnslo bank n d) s ∧
    RunsWriting (fmDataPort bank) d (reachesFmSlot s bank n) (fun t => { t with fnsHi := d }) (.fmFnshi bank n d) s ∧
    RunsWriting (fmDataPort bank) d (reachesFmSlot s bank n)
      (fun t => { t with algorithm := bits d 3 0 }) (.fmAlg bank n d) s ∧
    RunsWriting (fmDataPort bank) d (reachesFmSlot s bank n)
      (fun t => { t with ch0Level := bits d 7 4, ch1Level := bits d 3 0 }) (.fmCh01 bank n d) s ∧
    RunsWriting (fmDataPort bank) d (reachesFmSlot s bank n)
      (fun t => { t with ch2Level := bits d 7 4, ch3Level := bits d 3 0 }) (.fmCh23 bank n d) s

/-- A key-on (`data[0] = 1`) starts every slot that the sync mode mirrors to and clears the end markers of those that own
one; nothing else but the port register changes (R142, R143, R171). A started slot has the envelope steps
`trunc(delta / lut[rate] * 65536)` of its rates, 0 for a rate below 4 (R236), the LFO step of its frequency (R275), both
corrected for the clock (R541), the pointer of the address mode (R391), the phase step of the LFO's first value, and the
fixed start values (R171). Derived: the layout, the guard, the order, the formulas and the clearing are the spec's decisions
D2, D11, D13, D14, D18, D22, D31 and D41. -/
def Obligations.KeyOnStartsEverySibling : Prop :=
  ∀ (bank : BitVec 2) (n : Nibble) (d : Byte) (s : State), selectorValid n = true → d.getLsbD 0 = true →
    ∃ t, exec (.fmKey bank n d) s = .next t ∧
      { t with slots := s.slots, regs := s.regs, endStatus := s.endStatus } = s ∧ StoresByte (fmDataPort bank) d s t ∧
      (∀ i : SlotIx, if reachesFmSlot s bank n i then KeyedOn s.config (s.slot i) (t.slot i) else t.slot i = s.slot i) ∧
      (∀ i : SlotIx, i.val % 4 = 0 →
        t.endStatus.getLsbD (i.val / 4) = (s.endStatus.getLsbD (i.val / 4) && !reachesFmSlot s bank n i)) ∧
      ∀ k, 12 ≤ k → t.endStatus.getLsbD k = s.endStatus.getLsbD k

/-- A key-off (`data[0] = 0`) moves every active slot that the sync mode mirrors to into RELEASE, leaves the inactive ones
as they are, and changes nothing else but the port register (R142, R171; the guard is decision D14). -/
def Obligations.KeyOffReleasesActiveSiblings : Prop :=
  ∀ (bank : BitVec 2) (n : Nibble) (d : Byte) (s : State), selectorValid n = true → d.getLsbD 0 = false →
    RunsWriting (fmDataPort bank) d (fun i => reachesFmSlot s bank n i && (s.slot i).active)
      (fun t => { t with envState := .release }) (.fmKey bank n d) s

/-! ### PCM parameter writes -/

/-- The nine PCM address writes replace their own byte of their address on the one slot that the selector names, the format
write sets `fs`, `bits`, `srcnote` and `srcb` of it from their bit fields, and the other bits, every other slot and all
other state but the port register stay (R201 to R210; the layout and the order of the bytes are the spec's decision
D3). -/
def Obligations.PcmWritesReplaceTheirOwnBits : Prop :=
  ∀ (n : Nibble) (d : Byte) (s : State), selectorValid n = true →
    RunsWriting 0x9#4 d (namesPcmSlot n)
      (fun t => { t with startaddr := BitVec.ofNat 23 (t.startaddr.toNat / 256 * 256 + d.toNat) }) (.pcmStart0 n d) s ∧
    RunsWriting 0x9#4 d (namesPcmSlot n)
      (fun t => { t with
        startaddr := BitVec.ofNat 23 (t.startaddr.toNat / 65536 * 65536 + d.toNat * 256 + t.startaddr.toNat % 256) })
      (.pcmStart1 n d) s ∧
    RunsWriting 0x9#4 d (namesPcmSlot n)
      (fun t => { t with
        startaddr := BitVec.ofNat 23 (d.toNat % 128 * 65536 + t.startaddr.toNat % 65536), altloop := d.getLsbD 7 })
      (.pcmStart2 n d) s ∧
    RunsWriting 0x9#4 d (namesPcmSlot n)
      (fun t => { t with endaddr := BitVec.ofNat 23 (t.endaddr.toNat / 256 * 256 + d.toNat) }) (.pcmEnd0 n d) s ∧
    RunsWriting 0x9#4 d (namesPcmSlot n)
      (fun t => { t with
        endaddr := BitVec.ofNat 23 (t.endaddr.toNat / 65536 * 65536 + d.toNat * 256 + t.endaddr.toNat % 256) })
      (.pcmEnd1 n d) s ∧
    RunsWriting 0x9#4 d (namesPcmSlot n)
      (fun t => { t with endaddr := BitVec.ofNat 23 (d.toNat % 128 * 65536 + t.endaddr.toNat % 65536) })
      (.pcmEnd2 n d) s ∧
    RunsWriting 0x9#4 d (namesPcmSlot n)
      (fun t => { t with loopaddr := BitVec.ofNat 23 (t.loopaddr.toNat / 256 * 256 + d.toNat) }) (.pcmLoop0 n d) s ∧
    RunsWriting 0x9#4 d (namesPcmSlot n)
      (fun t => { t with
        loopaddr := BitVec.ofNat 23 (t.loopaddr.toNat / 65536 * 65536 + d.toNat * 256 + t.loopaddr.toNat % 256) })
      (.pcmLoop1 n d) s ∧
    RunsWriting 0x9#4 d (namesPcmSlot n)
      (fun t => { t with loopaddr := BitVec.ofNat 23 (d.toNat % 128 * 65536 + t.loopaddr.toNat % 65536) })
      (.pcmLoop2 n d) s ∧
    RunsWriting 0x9#4 d (namesPcmSlot n)
      (fun t => { t with
        fs := bits d 1 0, bits := if d.getLsbD 2 then .twelve else .eight, srcnote := bits d 4 3, srcb := bits d 7 5 })
      (.pcmFormat n d) s

/-- No instruction changes a PCM field of a slot whose number is not a multiple of 4, but `reset` and `start`, which put
its reset value there (R34; the numbering is decision D1; the reset values decision D12). -/
def Obligations.PcmFieldsOfUnreachableSlotsStay : Prop :=
  ∀ (i : Instr) (s t : State) (ix : SlotIx), exec i s = .next t → ix.val % 4 ≠ 0 →
    SamePcmFields (s.slot ix) (t.slot ix) ∨
      ((i = .hostReset ∨ ∃ c, i = .hostStart c) ∧ SamePcmFields Slot.reset (t.slot ix))

/-! ### Group, timer and external-memory writes -/

/-- `GRP_SYNC` sets `sync` and `pfm` of the group that the configured decode names, no slot and nothing else but the port
register: under FM_TAB the group `3*n[3:2] + n[1:0]` unless `n[1:0] = 3`, under DIRECT the group `n` unless it is above 11
(R211; the field positions and the default decode are decision D6). -/
def Obligations.GroupSyncWritesOneGroup : Prop :=
  ∀ (n : Nibble) (d : Byte) (s : State), ∃ t, exec (.grpSync n d) s = .next t ∧
    { t with groups := s.groups, regs := s.regs } = s ∧ StoresByte 0xD#4 d s t ∧
    ∀ g : GroupIx, t.group g =
      if (s.config.timerGroupDecode = .fmTab ∧ n.toNat % 4 ≠ 3 ∧ g.val = selectedGroup n) ∨
          (s.config.timerGroupDecode = .direct ∧ g.val = n.toNat) then
        { s.group g with sync := bits d 1 0, pfm := d.getLsbD 7 }
      else s.group g

/-- The timer load writes replace their own bits of `timerA` or `timerB`, both periods are recomputed in the same step,
and nothing else but the port register changes (R212, R214, R218, R219). -/
def Obligations.TimerLoadsRecomputeThePeriods : Prop :=
  ∀ (d : Byte) (s : State) (i : Instr), i ∈ [.timAHi d, .timALo d, .timB d] → ∃ t, exec i s = .next t ∧
    { t with
      timerA := s.timerA, timerB := s.timerB, timerAPeriod := s.timerAPeriod, timerBPeriod := s.timerBPeriod
      regs := s.regs } = s ∧
    StoresByte 0xD#4 d s t ∧
    t.timerA.toNat =
      (if i = .timAHi d then d.toNat * 4 + s.timerA.toNat % 4
        else if i = .timALo d then s.timerA.toNat / 4 * 4 + d.toNat % 4 else s.timerA.toNat) ∧
    t.timerB = (if i = .timB d then d else s.timerB) ∧
    t.timerAPeriod = 384 * (1024 - t.timerA.toNat) ∧ t.timerBPeriod = 384 * 16 * (256 - t.timerB.toNat)

/-- `TIM_CTRL` stores `enable`, clears `status[k]` and `irqstate[k]` where the data bit `4 + k` is set, both timers at
once, leaves the load values and the periods alone, and reports a change of the IRQ level; nothing else but the port
register changes (R213, R91, R93; the event is decision D39 and entry 7). -/
def Obligations.TimerControlClearsSelectedFlags : Prop :=
  ∀ (d : Byte) (s : State), ∃ t, exec (.timCtrl d) s = .next t ∧
    { t with
      enable := s.enable, status := s.status, irqstate := s.irqstate, events := s.events, regs := s.regs } = s ∧
    StoresByte 0xD#4 d s t ∧ t.enable = d ∧
    (∀ k, k < 2 → t.status.getLsbD k = (s.status.getLsbD k && !d.getLsbD (4 + k))) ∧
    (∀ k, k < 2 → t.irqstate.getLsbD k = (s.irqstate.getLsbD k && !d.getLsbD (4 + k))) ∧
    t.events = if t.irq = s.irq then s.events else s.events ++ [.irqChanged t.irq]

/-- The external address writes replace their own bits of the cursor (the third also sets `ext_rw`), then the latch holds
the byte at the new cursor; nothing else but the port register changes (R215, R220, R221; the reload is decision D9, the
position of the direction bit decision D7). -/
def Obligations.ExternalAddressWritesReloadTheLatch : Prop :=
  ∀ (d : Byte) (s : State) (i : Instr), i ∈ [.extAddr0 d, .extAddr1 d, .extAddr2 d] → ∃ t, exec i s = .next t ∧
    { t with
      extAddress := s.extAddress, extRw := s.extRw, extReadlatch := s.extReadlatch, regs := s.regs } = s ∧
    StoresByte 0xD#4 d s t ∧
    t.extAddress.toNat =
      (if i = .extAddr0 d then s.extAddress.toNat / 256 * 256 + d.toNat
        else if i = .extAddr1 d then s.extAddress.toNat / 65536 * 65536 + d.toNat * 256 + s.extAddress.toNat % 256
        else d.toNat % 128 * 65536 + s.extAddress.toNat % 65536) ∧
    t.extRw = (if i = .extAddr2 d then d.getLsbD 7 else s.extRw) ∧
    t.extReadlatch = memRead s.rom t.extAddress.toNat

/-- `EXT_DATA` emits `ExtWrite` at the old cursor when `ext_rw = 0`, then the cursor advances modulo 2^23 and the latch is
reloaded; the PCM memory and all other state but the port register stay (R216, R81; the direction, the wrap and the reload
are decisions D8 and D9). -/
def Obligations.ExternalDataWriteEmitsAndAdvances : Prop :=
  ∀ (d : Byte) (s : State), ∃ t, exec (.extData d) s = .next t ∧
    { t with
      extAddress := s.extAddress, extReadlatch := s.extReadlatch, events := s.events, regs := s.regs } = s ∧
    StoresByte 0xD#4 d s t ∧
    t.events = s.events ++ (if s.extRw then [] else [.extWrite s.extAddress d]) ∧
    t.extAddress.toNat = (s.extAddress.toNat + 1) % 8388608 ∧ t.extReadlatch = memRead s.rom t.extAddress.toNat

/-! ### Host operations -/

/-- A timer tick sets its status bit, sets its pending bit when its IRQ is enabled, leaves the other timer's bits alone,
and reports a change of the IRQ level; nothing else changes (R503, R505; the gating and the event are decisions D39 and
D40, the field `events` is entry 7). -/
def Obligations.TimerTicksSetTheirFlags : Prop :=
  ∀ (s : State) (k : Nat) (i : Instr), (i = .hostTickA ∧ k = 0) ∨ (i = .hostTickB ∧ k = 1) →
    ∃ t, exec i s = .next t ∧
      { t with status := s.status, irqstate := s.irqstate, events := s.events } = s ∧
      (∀ j, j < 2 → t.status.getLsbD j = (s.status.getLsbD j || j == k)) ∧
      (∀ j, j < 2 → t.irqstate.getLsbD j = (s.irqstate.getLsbD j || (j == k && s.enable.getLsbD (2 + k)))) ∧
      t.events = if t.irq = s.irq then s.events else s.events ++ [.irqChanged t.irq]

/-- The pending bits change only by a tick, by `TIM_CTRL`, by `reset` and by `start` (R504; entry 11 for `start`); the
events of a step are those before it, at most one external write, and last the new IRQ level exactly when the level
changed (R505; decision D39, entry 7). -/
def Obligations.IrqChangesOnlyByTimersAndIsReported : Prop :=
  ∀ (i : Instr) (s t : State), exec i s = .next t →
    (t.irqstate ≠ s.irqstate →
      i = .hostTickA ∨ i = .hostTickB ∨ (∃ d, i = .timCtrl d) ∨ i = .hostReset ∨ ∃ c, i = .hostStart c) ∧
    ∃ w : List (Addr × Byte), w.length ≤ 1 ∧
      t.events = s.events ++ w.map (fun x => .extWrite x.1 x.2) ++ (if t.irq = s.irq then [] else [.irqChanged t.irq])

/-- `set_mute(mask)` sets `muted` of group g to bit g of the mask and changes nothing else (R462; the mask is decision
D29). -/
def Obligations.MuteSetsTheTwelveFlags : Prop :=
  ∀ (mask : BitVec 12) (s : State), ∃ t, exec (.hostMute mask) s = .next t ∧ { t with groups := s.groups } = s ∧
    ∀ g : GroupIx, t.group g = { s.group g with muted := mask.getLsbD g.val }

/-- `alloc_rom(size)` makes the size `min size 2^23`, keeps the bytes below both sizes, gives 0xFF to every other byte
below the new size, reads 0 from there on, and changes nothing else (R463, R83; the fill and the clamp are decision
D54). -/
def Obligations.AllocRomKeepsTheCommonBytes : Prop :=
  ∀ (size : Nat) (s : State), ∃ t, exec (.hostAllocRom size) s = .next t ∧ { t with rom := s.rom } = s ∧
    t.rom.size = min size 8388608 ∧
    ∀ a : Nat, a < 8388608 → memRead t.rom a =
      if a < t.rom.size then (if a < s.rom.size then memRead s.rom a else 0xFF#8) else 0#8

/-- `write_rom(offset, bytes)` stores byte k at `offset + k` where that address is below the size, drops the others,
leaves every other address reading as before, and changes nothing else (R464; the dropping is decision D54). The premise
is the canonical form of the memory, which every step keeps. -/
def Obligations.WriteRomStoresItsBytes : Prop :=
  ∀ (offset : Nat) (bytes : List Byte) (s : State), ∃ t, exec (.hostWriteRom offset bytes) s = .next t ∧
    { t with rom := s.rom } = s ∧ t.rom.size = s.rom.size ∧
    (s.rom.wf = true → ∀ a : Nat, a < 8388608 → memRead t.rom a =
      if offset ≤ a ∧ a < offset + bytes.length ∧ a < s.rom.size then bytes.getD (a - offset) 0#8
      else memRead s.rom a)

/-- `reset` puts every item of its table at the value of the table, keeps the PCM memory, the mute flags and the
configuration, and releases an asserted IRQ. Derived: the values are the spec's decision D12 (R540); the event of the
released IRQ is decision D39, and the model's own fields stay (entries 7, 8). -/
def Obligations.ResetSetsEveryItemOfItsTable : Prop :=
  ∀ s : State, ∃ t, exec .hostReset s = .next t ∧
    { t with
      slots := s.slots, groups := s.groups, regs := s.regs, timerA := s.timerA, timerB := s.timerB
      timerAPeriod := s.timerAPeriod, timerBPeriod := s.timerBPeriod, enable := s.enable, status := s.status
      irqstate := s.irqstate, endStatus := s.endStatus, busyFlag := s.busyFlag, extAddress := s.extAddress
      extRw := s.extRw, extReadlatch := s.extReadlatch, events := s.events } = s ∧
    (∀ i : SlotIx, t.slot i =
      { waveform := 0, algorithm := 0, feedback := 0, accon := false, block := 0, fns := 0, fnsHi := 0, multiple := 0
        detune := 0, tl := 0, keyscale := 0, ar := 0, d1r := 0, d2r := 0, rr := 0, d1l := 0, lfoFreq := 0
        lfowave := 0, pms := 0, ams := 0, ch0Level := 0, ch1Level := 0, ch2Level := 0, ch3Level := 0
        startaddr := 0, endaddr := 0, loopaddr := 0, altloop := false, bits := .eight, fs := 0, srcnote := 0
        srcb := 0, active := false, volume := 0, envState := .attack, envStepAttack := 0, envStepDecay1 := 0
        envStepDecay2 := 0, envStepRelease := 0, stepptr := 0, step := 0, fbMod0 := 0, fbMod1 := 0, lfoPhase := 0
        lfoStep := 0, lfoAmplitude := 0, lfoPhasemod := 2 ^ 53, loopDirection := .forward }) ∧
    (∀ g : GroupIx, t.group g = ⟨0#2, false, (s.group g).muted⟩) ∧ (∀ p : Port, t.reg p = 0#8) ∧
    t.timerA = 0 ∧ t.timerB = 0 ∧ t.timerAPeriod = 393216 ∧ t.timerBPeriod = 1572864 ∧ t.enable = 0 ∧ t.status = 0 ∧
    t.irqstate = 0 ∧ t.endStatus = 0 ∧ t.busyFlag = false ∧ t.extAddress = 0 ∧ t.extRw = false ∧ t.extReadlatch = 0 ∧
    t.irq = false ∧ t.events = if s.irq then s.events ++ [.irqChanged false] else s.events

/-- `start(CLOCK)`, where the host's allocation succeeds, sets the clock and nothing else of the configuration, empties
the PCM memory, unmutes every group and resets every item of the reset table; it keeps the host's queue (R541; the outcome
is decision D39; entries 4, 7, 10 and 11 for the model's own fields). -/
def Obligations.StartEstablishesAnInstance : Prop :=
  ∀ (c : PosFrac) (s : State), s.config.startAllocOk = true → ∃ t, exec (.hostStart c) s = .next t ∧
    t.config = { s.config with clock := c } ∧ t.rom = ⟨0, []⟩ ∧ (∀ g : GroupIx, t.group g = ⟨0#2, false, false⟩) ∧
    (∀ i : SlotIx, t.slot i = Slot.reset) ∧ (∀ p : Port, t.reg p = 0#8) ∧ t.timerA = 0 ∧ t.timerB = 0 ∧
    t.timerAPeriod = 393216 ∧ t.timerBPeriod = 1572864 ∧ t.enable = 0 ∧ t.status = 0 ∧ t.irqstate = 0 ∧
    t.endStatus = 0 ∧ t.busyFlag = false ∧ t.extAddress = 0 ∧ t.extRw = false ∧ t.extReadlatch = 0 ∧
    t.mixbuf = [] ∧ t.accbuf = [] ∧ t.input = s.input ∧ t.result = s.result ∧
    t.events = if s.irq then s.events ++ [.irqChanged false] else s.events

/-- The host's own settings change only by the host's own operations: the PCM memory by `alloc_rom`, `write_rom` and
`start`, every byte reading as before otherwise; the mute flags by `set_mute` and `start`; the configuration by `start`,
and there the clock alone (R41, R81, R38, R32; that the core never writes the memory is decision D8). -/
def Obligations.HostSettingsChangeOnlyByHostOperations : Prop :=
  ∀ (i : Instr) (s t : State), exec i s = .next t →
    ((∃ n, i = .hostAllocRom n) ∨ (∃ o b, i = .hostWriteRom o b) ∨ (∃ c, i = .hostStart c) ∨
      (t.rom.size = s.rom.size ∧ ∀ a : Int, memRead t.rom a = memRead s.rom a)) ∧
    ((∃ m, i = .hostMute m) ∨ (∃ c, i = .hostStart c) ∨ ∀ g : GroupIx, (t.group g).muted = (s.group g).muted) ∧
    ((∃ c, i = .hostStart c ∧ t.config = { s.config with clock := c }) ∨ t.config = s.config)

/-! ### The update engine -/

/-- `update(N)` completes for every N: it returns two arrays of N samples, leaves the buffers gone, and may change only
the dynamic state of slots and, by setting them, end markers; every register-backed field, every group, port register and
timer, the external cursor and the PCM memory stay (R40, R450, R455). -/
def Obligations.UpdateReturnsArraysAndKeepsTheRegisters : Prop :=
  ∀ (n : Nat) (s : State), ∃ t l r, exec (.hostUpdate n) s = .next t ∧ t.result = .samples l r ∧
    l.length = n ∧ r.length = n ∧ t.mixbuf = [] ∧ t.accbuf = [] ∧
    { t with
      slots := s.slots, endStatus := s.endStatus, mixbuf := s.mixbuf, accbuf := s.accbuf, pos := s.pos
      result := s.result } = s ∧
    (∀ i : SlotIx, SameRegisters (s.slot i) (t.slot i)) ∧
    ∀ k, s.endStatus.getLsbD k = true → t.endStatus.getLsbD k = true

/-- `update(N)` starts from two zero buffers of N frames, runs the rows that the groups select, groups 0 to 11 in order
and the units of a group in the order of R451, then folds the ACC buffer into the direct buffer and the four channels into
two (R105, R435, R436, R450, R451; the order is decision D37, the zero start decision D52). -/
def Obligations.UpdateRunsTheSelectedRowsInOrder : Prop :=
  ∀ (n : Nat) (s t u : State), exec (.hostUpdate n) s = .next t →
    u = [0, 1, 2, 3, 4, 5, 6, 7, 8, 9, 10, 11].foldl renderRows
      { s with mixbuf := List.replicate n ⟨0, 0, 0, 0⟩, accbuf := List.replicate n ⟨0, 0, 0, 0⟩ } →
    u.mixbuf.length = n ∧ u.accbuf.length = n ∧ t.slots = u.slots ∧ t.endStatus = u.endStatus ∧
      t.result = .samples
        (List.zipWith (fun m a =>
          BitVec.ofInt 32 (((m.ch0 + a.ch0).toInt + (m.ch2 + a.ch2).toInt * 5 / 256) / 4)) u.mixbuf u.accbuf)
        (List.zipWith (fun m a =>
          BitVec.ofInt 32 (((m.ch1 + a.ch1).toInt + (m.ch3 + a.ch3).toInt * 5 / 256) / 4)) u.mixbuf u.accbuf)

/-- A second `reset` changes nothing, and after a `reset` no slot is active; with no slot active an `update` emits zeros and
changes no state but its own result (R542, R544, R451; that a gated unit does not tick is decision D29). -/
def Obligations.ResetIsIdempotentAndInactiveSlotsAreSilent : Prop :=
  (∀ s t : State, exec .hostReset s = .next t →
    exec .hostReset t = .next t ∧ ∀ i : SlotIx, (t.slot i).active = false) ∧
    ∀ (n : Nat) (s : State), (∀ i : SlotIx, (s.slot i).active = false) → ∃ t, exec (.hostUpdate n) s = .next t ∧
      t.result = .samples (List.replicate n 0#32) (List.replicate n 0#32) ∧
      { t with mixbuf := s.mixbuf, accbuf := s.accbuf, pos := s.pos, result := s.result } = s

/-- The slots of a muted group keep all their state through an `update`; so do the four slots of a group in sync 0 whose
bank-0 slot is inactive, though the others be active (R451, R453; decision D29). -/
def Obligations.MutedAndGatedSlotsDoNotMove : Prop :=
  ∀ (n : Nat) (s t : State) (g : GroupIx), exec (.hostUpdate n) s = .next t →
    (s.group g).muted = true ∨ ((s.group g).sync = 0#2 ∧ (s.slot (slotIx 0 g)).active = false) →
    ∀ i : SlotIx, groupOf i = g.val → t.slot i = s.slot i

/-- No instruction makes an inactive slot active but a key-on that reaches it: `FM_KEY` with `data[0] = 1` through a valid
selector, written to the slot itself or mirrored to it (R37, R43, R142, R143, R171). Derived: the key bit and the numbering
are the spec's decisions D1 and D2, the mirror targets its decision D13. -/
def Obligations.OnlyAKeyOnMakesASlotSound : Prop :=
  ∀ (i : Instr) (s t : State) (ix : SlotIx), exec i s = .next t → (s.slot ix).active = false →
    (t.slot ix).active = true →
    ∃ bank n d, i = .fmKey bank n d ∧ d.getLsbD 0 = true ∧ selectorValid n = true ∧ reachesFmSlot s bank n ix = true

/-- A rendering dispatch row changes only the dynamic state of the slots of the group at the position, sets end markers
of such slots, and adds into the two buffers, whose lengths stay (R330, R333, R392, R398, R424). -/
def Obligations.DispatchRowsChangeOnlyTheirGroup : Prop :=
  ∀ (a : BitVec 6) (s : State), ∃ t, exec (decode (.al a)) s = .next t ∧
    { t with slots := s.slots, endStatus := s.endStatus, mixbuf := s.mixbuf, accbuf := s.accbuf } = s ∧
    t.mixbuf.length = s.mixbuf.length ∧ t.accbuf.length = s.accbuf.length ∧
    (∀ i : SlotIx, SameRegisters (s.slot i) (t.slot i)) ∧
    (∀ i : SlotIx, groupOf i ≠ s.pos.group.val → t.slot i = s.slot i) ∧
    (∀ k, s.endStatus.getLsbD k = true → t.endStatus.getLsbD k = true) ∧
    ∀ k, t.endStatus.getLsbD k = true → s.endStatus.getLsbD k = true ∨ 4 * k % 12 = s.pos.group.val

/-! ### The algorithm rows -/

/-- Sync-0 rows 0 to 7 run their sequences for every sample of the call behind the bank-0 gate, then mix their carriers;
the seats of the unit are `S1 = g`, `S2 = g + 12`, `S3 = g + 24`, `S4 = g + 36` (R330, R333, R350 to R357). A carrier reads
the PCM memory exactly under `PFM_MODE = ROM_CARRIER`, `pfm = 1`, `sync` in 0..2 and group 0, 4 or 8, and a modulator never
(R340). The numbering is the spec's decision D1, the routings decision D28, the gate decision D29, PFM decision D30. -/
def Obligations.SerialAlgorithmRowsRunTheirSequences : Prop :=
  ∀ (s : State) (u : Unit4), u = ⟨s.pos.group, .a⟩ →
    ((u.seat .s1).val = s.pos.group.val ∧ (u.seat .s2).val = s.pos.group.val + 12 ∧
      (u.seat .s3).val = s.pos.group.val + 24 ∧ (u.seat .s4).val = s.pos.group.val + 36) ∧
    exec .alg0_0 s = .next (gatedUnit (u.seat .s1) (fun i =>
      callOp u false .s1 .feedback fun pm1 => tapFeedback u pm1 <| callOp u false .s3 (.value pm1) fun pm3 =>
      callOp u false .s2 (.value pm3) fun pm2 => callOp u true .s4 (.value pm2) fun out4 => mixOut u i .s4 out4) s) ∧
    exec .alg0_1 s = .next (gatedUnit (u.seat .s1) (fun i =>
      callOp u false .s1 .feedback fun pm1 => callOp u false .s3 (.value pm1) fun pm3 => tapFeedback u pm3 <|
      callOp u false .s2 (.value pm3) fun pm2 => callOp u true .s4 (.value pm2) fun out4 => mixOut u i .s4 out4) s) ∧
    exec .alg0_2 s = .next (gatedUnit (u.seat .s1) (fun i =>
      callOp u false .s1 .feedback fun pm1 => tapFeedback u pm1 <| callOp u false .s3 .none fun pm3 =>
      callOp u false .s2 (.value (pm1 + pm3)) fun pm2 =>
      callOp u true .s4 (.value pm2) fun out4 => mixOut u i .s4 out4) s) ∧
    exec .alg0_3 s = .next (gatedUnit (u.seat .s1) (fun i =>
      callOp u false .s1 .feedback fun pm1 => tapFeedback u pm1 <| callOp u false .s3 .none fun pm3 =>
      callOp u false .s2 (.value pm3) fun pm2 =>
      callOp u true .s4 (.value (pm1 + pm2)) fun out4 => mixOut u i .s4 out4) s) ∧
    exec .alg0_4 s = .next (gatedUnit (u.seat .s1) (fun i =>
      callOp u false .s1 .feedback fun pm1 => tapFeedback u pm1 <| callOp u false .s3 (.value pm1) fun pm3 =>
      callOp u false .s2 .none fun pm2 =>
      callOp u true .s4 (.value (pm3 + pm2)) fun out4 => mixOut u i .s4 out4) s) ∧
    exec .alg0_5 s = .next (gatedUnit (u.seat .s1) (fun i =>
      callOp u false .s1 .feedback fun pm1 => callOp u false .s3 (.value pm1) fun pm3 => tapFeedback u pm3 <|
      callOp u false .s2 .none fun pm2 =>
      callOp u true .s4 (.value (pm3 + pm2)) fun out4 => mixOut u i .s4 out4) s) ∧
    exec .alg0_6 s = .next (gatedUnit (u.seat .s1) (fun i =>
      callOp u false .s1 .feedback fun pm1 => tapFeedback u pm1 <| callOp u true .s3 (.value pm1) fun out3 =>
      callOp u false .s2 .none fun pm2 => callOp u true .s4 (.value pm2) fun out4 s' =>
      mixOut u i .s4 out4 (mixOut u i .s3 out3 s')) s) ∧
    exec .alg0_7 s = .next (gatedUnit (u.seat .s1) (fun i =>
      callOp u false .s1 .feedback fun pm1 => callOp u true .s3 (.value pm1) fun pm3 => tapFeedback u pm3 <|
      callOp u false .s2 .none fun pm2 => callOp u true .s4 (.value pm2) fun out4 s' =>
      mixOut u i .s4 out4 (mixOut u i .s3 pm3 s')) s)

/-- Sync-0 rows 8 to 15 run their sequences for every sample of the call behind the bank-0 gate, then mix their carriers
(R330, R333, R358 to R365). Carriers under PFM read the PCM memory exactly where R340 says so. The routings are the spec's
decision D28, the gate decision D29, PFM decision D30. -/
def Obligations.ParallelAlgorithmRowsRunTheirSequences : Prop :=
  ∀ (s : State) (u : Unit4), u = ⟨s.pos.group, .a⟩ →
    exec .alg0_8 s = .next (gatedUnit (u.seat .s1) (fun i =>
      callOp u true .s1 .feedback fun pm1 => tapFeedback u pm1 <| callOp u false .s3 .none fun pm3 =>
      callOp u false .s2 (.value pm3) fun pm2 => callOp u true .s4 (.value pm2) fun out4 s' =>
      mixOut u i .s4 out4 (mixOut u i .s1 pm1 s')) s) ∧
    exec .alg0_9 s = .next (gatedUnit (u.seat .s1) (fun i =>
      callOp u true .s1 .feedback fun pm1 => tapFeedback u pm1 <| callOp u false .s3 .none fun pm3 =>
      callOp u false .s2 .none fun pm2 => callOp u true .s4 (.value (pm3 + pm2)) fun out4 s' =>
      mixOut u i .s4 out4 (mixOut u i .s1 pm1 s')) s) ∧
    exec .alg0_10 s = .next (gatedUnit (u.seat .s1) (fun i =>
      callOp u false .s1 .feedback fun pm1 => tapFeedback u pm1 <| callOp u true .s3 (.value pm1) fun out3 =>
      callOp u true .s2 .none fun out2 => callOp u true .s4 .none fun out4 s' =>
      mixOut u i .s4 out4 (mixOut u i .s3 out3 (mixOut u i .s2 out2 s'))) s) ∧
    exec .alg0_11 s = .next (gatedUnit (u.seat .s1) (fun i =>
      callOp u false .s1 .feedback fun pm1 => callOp u true .s3 (.value pm1) fun pm3 => tapFeedback u pm3 <|
      callOp u true .s2 .none fun out2 => callOp u true .s4 .none fun out4 s' =>
      mixOut u i .s4 out4 (mixOut u i .s3 pm3 (mixOut u i .s2 out2 s'))) s) ∧
    exec .alg0_12 s = .next (gatedUnit (u.seat .s1) (fun i =>
      callOp u false .s1 .feedback fun pm1 => tapFeedback u pm1 <| callOp u true .s3 (.value pm1) fun out3 =>
      callOp u true .s2 (.value pm1) fun out2 => callOp u true .s4 (.value pm1) fun out4 s' =>
      mixOut u i .s4 out4 (mixOut u i .s3 out3 (mixOut u i .s2 out2 s'))) s) ∧
    exec .alg0_13 s = .next (gatedUnit (u.seat .s1) (fun i =>
      callOp u true .s1 .feedback fun pm1 => tapFeedback u pm1 <| callOp u false .s3 .none fun pm3 =>
      callOp u true .s2 (.value pm3) fun out2 => callOp u true .s4 .none fun out4 s' =>
      mixOut u i .s4 out4 (mixOut u i .s2 out2 (mixOut u i .s1 pm1 s'))) s) ∧
    exec .alg0_14 s = .next (gatedUnit (u.seat .s1) (fun i =>
      callOp u true .s1 .feedback fun pm1 => tapFeedback u pm1 <| callOp u true .s3 (.value pm1) fun out3 =>
      callOp u false .s2 .none fun pm2 => callOp u true .s4 (.value pm2) fun out4 s' =>
      mixOut u i .s4 out4 (mixOut u i .s3 out3 (mixOut u i .s1 pm1 s'))) s) ∧
    exec .alg0_15 s = .next (gatedUnit (u.seat .s1) (fun i =>
      callOp u true .s1 .feedback fun pm1 => tapFeedback u pm1 <| callOp u true .s3 .none fun out3 =>
      callOp u true .s2 .none fun out2 => callOp u true .s4 .none fun out4 s' =>
      mixOut u i .s4 out4 (mixOut u i .s3 out3 (mixOut u i .s2 out2 (mixOut u i .s1 pm1 s')))) s)

/-- Sync-1 rows run their sequences on the pair at the position, behind the leader's gate, whatever the algorithm bits 3..2
hold; the leader `L` is `S1` and the second slot `M` is `S3` in pair A, `S2` and `S4` in pair B (R330, R333, R366 to R370).
Carriers under PFM read the PCM memory exactly where R340 says so. The numbering is the spec's decision D1, the routings
decision D28, the gate decision D29, PFM decision D30. -/
def Obligations.PairAlgorithmRowsRunTheirSequences : Prop :=
  ∀ (s : State) (hi : BitVec 2) (u : Unit4), u = ⟨s.pos.group, s.pos.pair⟩ →
    ((u.seat .s1).val = (if s.pos.pair = .a then s.pos.group.val else s.pos.group.val + 12) ∧
      (u.seat .s3).val = (if s.pos.pair = .a then s.pos.group.val + 24 else s.pos.group.val + 36)) ∧
    exec (.alg1_0 hi) s = .next (gatedUnit (u.seat .s1) (fun i =>
      callOp u false .s1 .feedback fun pmL => tapFeedback u pmL <| callOp u true .s3 (.value pmL) fun outM =>
      mixOut u i .s3 outM) s) ∧
    exec (.alg1_1 hi) s = .next (gatedUnit (u.seat .s1) (fun i =>
      callOp u false .s1 .feedback fun pmL => callOp u true .s3 (.value pmL) fun pmM => tapFeedback u pmM <|
      mixOut u i .s3 pmM) s) ∧
    exec (.alg1_2 hi) s = .next (gatedUnit (u.seat .s1) (fun i =>
      callOp u true .s1 .feedback fun pmL => tapFeedback u pmL <| callOp u true .s3 .none fun outM s' =>
      mixOut u i .s3 outM (mixOut u i .s1 pmL s')) s) ∧
    exec (.alg1_3 hi) s = .next (gatedUnit (u.seat .s1) (fun i =>
      callOp u true .s1 .feedback fun pmL => tapFeedback u pmL <| callOp u true .s3 (.value pmL) fun outM s' =>
      mixOut u i .s3 outM (mixOut u i .s1 pmL s')) s)

/-- Sync-2 rows run their three-operator sequences behind the bank-0 gate, whatever the algorithm bit 3 holds (R330, R333,
R371 to R378). Carriers under PFM read the PCM memory exactly where R340 says so. The routings are the spec's decision D28,
the gate decision D29, PFM decision D30; the PCM voice of bank 3 is not part of the row (R379; entry 21). -/
def Obligations.ThreeOperatorRowsRunTheirSequences : Prop :=
  ∀ (s : State) (hi : BitVec 1) (u : Unit4), u = ⟨s.pos.group, .a⟩ →
    exec (.alg2_0 hi) s = .next (gatedUnit (u.seat .s1) (fun i =>
      callOp u false .s1 .feedback fun pm1 => tapFeedback u pm1 <| callOp u false .s3 (.value pm1) fun pm3 =>
      callOp u true .s2 (.value pm3) fun out2 => mixOut u i .s2 out2) s) ∧
    exec (.alg2_1 hi) s = .next (gatedUnit (u.seat .s1) (fun i =>
      callOp u false .s1 .feedback fun pm1 => callOp u false .s3 (.value pm1) fun pm3 => tapFeedback u pm3 <|
      callOp u true .s2 (.value pm3) fun out2 => mixOut u i .s2 out2) s) ∧
    exec (.alg2_2 hi) s = .next (gatedUnit (u.seat .s1) (fun i =>
      callOp u false .s1 .feedback fun pm1 => tapFeedback u pm1 <| callOp u false .s3 .none fun pm3 =>
      callOp u true .s2 (.value (pm1 + pm3)) fun out2 => mixOut u i .s2 out2) s) ∧
    exec (.alg2_3 hi) s = .next (gatedUnit (u.seat .s1) (fun i =>
      callOp u true .s1 .feedback fun pm1 => tapFeedback u pm1 <| callOp u false .s3 .none fun pm3 =>
      callOp u true .s2 (.value pm3) fun out2 s' => mixOut u i .s2 out2 (mixOut u i .s1 pm1 s')) s) ∧
    exec (.alg2_4 hi) s = .next (gatedUnit (u.seat .s1) (fun i =>
      callOp u false .s1 .feedback fun pm1 => tapFeedback u pm1 <| callOp u true .s3 (.value pm1) fun out3 =>
      callOp u true .s2 .none fun out2 s' => mixOut u i .s3 out3 (mixOut u i .s2 out2 s')) s) ∧
    exec (.alg2_5 hi) s = .next (gatedUnit (u.seat .s1) (fun i =>
      callOp u false .s1 .feedback fun pm1 => callOp u true .s3 (.value pm1) fun pm3 => tapFeedback u pm3 <|
      callOp u true .s2 .none fun out2 s' => mixOut u i .s3 pm3 (mixOut u i .s2 out2 s')) s) ∧
    exec (.alg2_6 hi) s = .next (gatedUnit (u.seat .s1) (fun i =>
      callOp u true .s1 .feedback fun pm1 => tapFeedback u pm1 <| callOp u true .s3 .none fun out3 =>
      callOp u true .s2 .none fun out2 s' =>
      mixOut u i .s3 out3 (mixOut u i .s2 out2 (mixOut u i .s1 pm1 s'))) s) ∧
    exec (.alg2_7 hi) s = .next (gatedUnit (u.seat .s1) (fun i =>
      callOp u true .s1 .feedback fun pm1 => tapFeedback u pm1 <| callOp u true .s3 (.value pm1) fun out3 =>
      callOp u true .s2 .none fun out2 s' =>
      mixOut u i .s3 out3 (mixOut u i .s2 out2 (mixOut u i .s1 pm1 s'))) s)

/-- `SYNC3` runs the PCM tick of banks 0, 1, 2, 3 of the group, each for every sample of the call behind its own `active`,
one bank after the other; the algorithm field is not read (R380, R392; the order is decision D37, the gate decision
D29). -/
def Obligations.SyncThreeRowRunsFourVoices : Prop :=
  ∀ (alg : BitVec 4) (s : State) (g : GroupIx), g = s.pos.group →
    exec (.sync3 alg) s = .next ([0, 1, 2, 3].foldl (fun s' b => gatedUnit (slotIx b g) (pcmTick (slotIx b g)) s') s)

/-! ### Operators, levels and pitch -/

/-- One operator evaluation: the envelope tick and the LFO tick, then the volume, the modulation input from the slot as
ticked, the wave entry at `((stepptr + x) >> 16) & 1023` times the volume shifted right by 16, and the pointer advanced by
the step just recomputed. A PFM carrier reads the PCM memory in place of the wave, at the sample index of the unmasked sum,
then advances and loops as a PCM voice does (R300, R301, R302, R303, R341). The LFO tick adds `lfo_step` to `lfo_phase`
modulo 2^32, reads `lfo_amplitude` and `lfo_phasemod` from their tables at bits 15..8 of the new phase, recomputes `step`
with them and changes nothing else (R270, R276). Derived: the reading of the product, the shift of the feedback words and
the truncating division are decisions D25, D26 and D27, the PFM mechanics decision D30, the LFO's index and the recomputed
step decisions D22 and D16. -/
def Obligations.OperatorsFollowTheFourSteps : Prop :=
  ∀ (c : Config) (m : Rom) (t t1 : Slot) (inp : OpInput) (x : Int), t1 = updateLfo c (updateEnvelope t) →
    (inp = .none → x = 0) → (inp = .feedback → x = (t1.fbMod0.toInt + t1.fbMod1.toInt).tdiv 2) →
    (∀ v, inp = .value v → x = v * 2 ^ 8 * [16, 8, 4, 2, 1, 32, 64, 128].getD t1.feedback.toNat 0) →
    t1.lfoPhase.toNat = (t.lfoPhase.toNat + t.lfoStep.toNat) % 2 ^ 32 ∧
    t1.lfoAmplitude = alfoAt c t.lfowave (t1.lfoPhase.toNat / 256 % 256) ∧
    t1.lfoPhasemod = plfoAt c t.lfowave t.pms (t1.lfoPhase.toNat / 256 % 256) ∧
    t1.step = calcStep c { t with lfoPhasemod := t1.lfoPhasemod } ∧
    { t1 with
      lfoPhase := t.lfoPhase, lfoAmplitude := t.lfoAmplitude, lfoPhasemod := t.lfoPhasemod, step := t.step } =
        updateEnvelope t ∧
    (calculateOp c t inp).1 =
      waveAt t1.waveform ((t1.stepptr.toNat + x) / 65536 % 1024).toNat * slotVolume c t1 / 65536 ∧
    (calculateOp c t inp).2 =
      { t1 with
        stepptr := BitVec.ofNat 64 (t1.stepptr.toNat + t1.step.toNat)
        fbMod0 := if inp = .feedback then t1.fbMod1 else t1.fbMod0 } ∧
    (pfmOp c m t inp).1 = pcmSample m t1 (sampleIndex c t1 (t1.stepptr.toInt + x)) * slotVolume c t1 / 65536 ∧
    (pfmOp c m t inp).2 =
      loopCheck (pcmAdvance { t1 with fbMod0 := if inp = .feedback then t1.fbMod1 else t1.fbMod0 })

/-- Every operator result is a signed 16-bit value, and so is what a PFM carrier gives (R309, R334); the premise is the
range of the slot's state and of the gain table. -/
def Obligations.OperatorResultsAreSixteenBit : Prop :=
  ∀ (c : Config) (m : Rom) (t : Slot) (inp : OpInput), GoodConfig c → GoodSlot t →
    -32768 ≤ (calculateOp c t inp).1 ∧ (calculateOp c t inp).1 ≤ 32767 ∧
      -32768 ≤ (pfmOp c m t inp).1 ∧ (pfmOp c m t inp).1 ≤ 32767

/-- The phase index is bits 25..16 of the two's-complement 64-bit sum of the pointer and the modulation input, on the
exact sum, so that a negative input is subtracted (R301). -/
def Obligations.PhaseIndexIsBitsOfTheExactSum : Prop :=
  ∀ (p : BitVec 64) (x : Int),
    (phaseIndex p x : Int) = (p.toNat + x) / 65536 % 1024 ∧
      phaseIndex p x = ((p + BitVec.ofInt 64 x).extractLsb' 16 10).toNat

/-- `set_feedback(s, v)` stores `((v << 8) * feedback_level[feedback]) / 4`, truncated toward zero, in the signed 64-bit
word `fb_mod1` and changes nothing else; with `feedback = 0` it stores 0 (R304). For any result of an operator, and the sum
of two, the word holds the quotient itself. -/
def Obligations.SetFeedbackStoresAQuarterOfTheProduct : Prop :=
  ∀ (t : Slot) (v q : Int), q = (v * 256 * [0, 1, 2, 4, 8, 16, 32, 64].getD t.feedback.toNat 0).tdiv 4 →
    (setFeedback t v).fbMod1 = BitVec.ofInt 64 q ∧ { setFeedback t v with fbMod1 := t.fbMod1 } = t ∧
      (t.feedback = 0#3 → (setFeedback t v).fbMod1 = 0#64) ∧
      (-65536 ≤ v → v ≤ 65536 → (setFeedback t v).fbMod1.toInt = q)

/-- The slot volume is the envelope entry at `255 - (volume >> 16)` times the amplitude-LFO gain times the total-level
entry, each product shifted right by 16; it lies in 0..65536 for a slot and a gain table within their ranges (R305). -/
def Obligations.SlotVolumeIsTheShiftedProduct : Prop :=
  ∀ (c : Config) (t : Slot),
    slotVolume c t =
        evAt (255 - t.volume / 65536).toNat * alfoGainAt c t.ams t.lfoAmplitude / 65536 * tlAt t.tl.toNat / 65536 ∧
      (GoodConfig c → GoodSlot t → slotVolume c t ≤ 65536)

/-- The envelope table and the total-level table are the truncated exponentials of their rules at every index (R241, R306;
the truncation and the closed form of the second are decision D20). -/
def Obligations.GainTablesAreTruncatedExponentials : Prop :=
  (∀ i : Nat, i < 256 → (evAt i : Int) = ⌊(65536 : ℝ) / (10 : ℝ) ^ (((i : ℝ) * 96 / 256) / 20)⌋) ∧
    ∀ i : Nat, i < 128 → (tlAt i : Int) = ⌊(65536 : ℝ) / (10 : ℝ) ^ ((0.75 * (i : ℝ)) / 20)⌋

/-- The keycode of a slot on an internal wave is `(block & 7) * 4 + n43`, with `n43` by the three thresholds of the
F-number, and lies in 0..31 (R230); on the external wave it is `srcb * 4 + srcnote + block * 4 + n43_ext`, clamped to 31,
with the whole block and `n43_ext` by the thresholds of `fns[10:0]` (R231, R232); the effective rate of each envelope state
is `base + RKS[kc][keyscale]` clamped to 0..63, with the bases `ar * 2`, `d1r * 2`, `d2r * 2` and `rr * 4` (R234). Derived:
the choice of the keycode and the 11-bit F-number are the spec's decision D17. -/
def Obligations.KeycodesAndRatesFollowTheirRules : Prop :=
  (∀ t : Slot, t.waveform ≠ 7#3 →
    keycode t = t.block.toNat % 8 * 4 +
        (if t.fns.toNat < 0x780 then 0 else if t.fns.toNat < 0x900 then 1 else if t.fns.toNat < 0xA80 then 2 else 3) ∧
      keycode t ≤ 31) ∧
  (∀ t : Slot, t.waveform = 7#3 →
    (keycode t : Int) = clamp (t.srcb.toNat * 4 + t.srcnote.toNat + (t.block.toNat * 4 +
        (if t.fns.toNat % 2048 < 0x100 then 0 else if t.fns.toNat % 2048 < 0x300 then 1
          else if t.fns.toNat % 2048 < 0x500 then 2 else 3 : Nat)) : Nat) 0 31) ∧
  ∀ (c : Config) (t : Slot) (e : EnvState),
    (effectiveRate c t e : Int) =
      clamp ((match e with
          | .attack => t.ar.toNat * 2
          | .decay1 => t.d1r.toNat * 2
          | .decay2 => t.d2r.toNat * 2
          | .release => t.rr.toNat * 4 : Nat) + (rksAt c (keycode t) t.keyscale : Int)) 0 63

/-- A state whose effective rate r is 4 or more gets at key-on the step `trunc(delta / lut[r] * 65536)`, where `delta` is
255, or `d1l * 16` in DECAY1, and `lut` is `LUT_AR` for attack and release and `LUT_DC` for the decays, corrected for the
clock (R236, R541). A state whose effective rate is below 4 gets the step 0, and the volume does not move in that state,
while the steps are those of the key-on; in particular a slot keyed on with such an attack rate stays in ATTACK at
`95 * 2^16` through any number of ticks (R237). Derived: the formula is the spec's decision D18, the direction of the clock
correction its decision D41. -/
def Obligations.RatesGiveTheirStepsAndZeroRatesHold : Prop :=
  (∀ (c : Config) (t : Slot) (e : EnvState) (delta : Nat) (lut : Nat → PosFrac), 4 ≤ effectiveRate c t e →
    delta = (if e = .decay1 then t.d1l.toNat * 16 else 255) →
    lut = (if e = .attack ∨ e = .release then lutAR c else lutDC c) →
    envStepOf c t e = ⌊(delta : ℚ) / ((lut (effectiveRate c t e)).value * (stdClock.value / c.clock.value)) * 65536⌋₊) ∧
  ∀ (c : Config) (t : Slot) (e : EnvState), effectiveRate c t e < 4 →
    envStepOf c t e = 0 ∧
      (∀ u : Slot, GoodSlot u → u.envState = e → u.envStepAttack = envStepOf c t .attack →
        u.envStepDecay1 = envStepOf c t .decay1 → u.envStepDecay2 = envStepOf c t .decay2 →
        u.envStepRelease = envStepOf c t .release → (updateEnvelope u).volume = u.volume) ∧
      (e = .attack → ∀ n : Nat, (updateEnvelope^[n] (initEnvelope c t)).volume = 95 * 65536 ∧
        (updateEnvelope^[n] (initEnvelope c t)).envState = .attack)

/-! ### The envelope -/

/-- One envelope tick in each state: the attack adds and saturates at `255 << 16`, moving on to DECAY1; a decay or release
subtracts and, at or below 0, ends with the volume 0 and the slot inactive; DECAY1 that has not ended moves on to DECAY2 at
its level. Only `volume`, `active` and `env_state` change (R238, R239). Derived: the order of the end check and the clamp
to 0 are decision D19. -/
def Obligations.EnvelopeTicksByState : Prop :=
  ∀ t : Slot,
    { updateEnvelope t with volume := t.volume, active := t.active, envState := t.envState } = t ∧
    (t.envState = .attack →
      (updateEnvelope t).volume = min (t.volume + t.envStepAttack) (255 * 65536) ∧
      (updateEnvelope t).active = t.active ∧
      ((updateEnvelope t).envState = if 255 * 65536 ≤ t.volume + t.envStepAttack then .decay1 else .attack)) ∧
    (t.envState = .decay1 →
      (updateEnvelope t).volume = max (t.volume - t.envStepDecay1) 0 ∧
      (updateEnvelope t).active = (t.active && decide (0 < t.volume - t.envStepDecay1)) ∧
      ((updateEnvelope t).envState =
        if 0 < t.volume - t.envStepDecay1 ∧ (t.volume - t.envStepDecay1) / 65536 ≤ 255 - t.d1l.toNat * 16
        then .decay2 else .decay1)) ∧
    (t.envState = .decay2 →
      (updateEnvelope t).volume = max (t.volume - t.envStepDecay2) 0 ∧
      (updateEnvelope t).active = (t.active && decide (0 < t.volume - t.envStepDecay2)) ∧
      (updateEnvelope t).envState = .decay2) ∧
    (t.envState = .release →
      (updateEnvelope t).volume = max (t.volume - t.envStepRelease) 0 ∧
      (updateEnvelope t).active = (t.active && decide (0 < t.volume - t.envStepRelease)) ∧
      (updateEnvelope t).envState = .release)

/-- After a key-on with a positive attack step the volume climbs by that step each tick in ATTACK and reaches exactly
`255 << 16`, with the move to DECAY1, at tick `ceil(160 * 2^16 / env_step[ATTACK])` and not before (R243). -/
def Obligations.AttackReachesTheTopExactly : Prop :=
  ∀ (c : Config) (t : Slot) (e n : Nat), e = envStepOf c t .attack → 0 < e → n = (160 * 65536 + e - 1) / e →
    (∀ k : Nat, k < n → (updateEnvelope^[k] (initEnvelope c t)).envState = .attack ∧
      (updateEnvelope^[k] (initEnvelope c t)).volume = 95 * 65536 + k * e) ∧
    (updateEnvelope^[n] (initEnvelope c t)).envState = .decay1 ∧
    (updateEnvelope^[n] (initEnvelope c t)).volume = 255 * 65536

/-- A slot in RELEASE with a positive step is inactive with the volume 0 after `ceil(volume / env_step[RELEASE])` ticks,
one at least, and stays so through any further ticks (R37, R238, R239; the clamp is decision D19). -/
def Obligations.ReleaseEndsTheSlot : Prop :=
  ∀ (t : Slot) (n : Nat), t.envState = .release → 0 < t.envStepRelease → 0 ≤ t.volume →
    t.volume ≤ n * t.envStepRelease → 0 < n →
    (updateEnvelope^[n] t).active = false ∧ (updateEnvelope^[n] t).volume = 0 ∧
      (updateEnvelope^[n] t).envState = .release

/-- With no detune and no pitch modulation the phase step is the exact quotient of R285, under either numerics: the product
of F-number, block and multiple over 8192 on an internal wave, that of `fns[10:0] | 2048`, block, divider and multiple over
8 on the external one. Derived: the reading of the divisors and the 11-bit F-number are decision D15, the tables of
multiples and dividers decision D48. -/
def Obligations.UnmodulatedStepIsTheExactQuotient : Prop :=
  ∀ (c : Config) (t : Slot) (pow2 mult2 : Nat), t.lfoPhasemod = 2 ^ 53 →
    pow2 = (if t.block.toNat < 8 then 2 ^ (8 + t.block.toNat) else 2 ^ (t.block.toNat - 8)) →
    mult2 = (if t.multiple.toNat = 0 then 1 else 2 * t.multiple.toNat) →
    (t.waveform ≠ 7#3 → (detuneAt c t.detune (keycode t)).num = 0 →
      (calcStep c t).toNat = t.fns.toNat * pow2 * mult2 * 512 / 8192) ∧
    (t.waveform = 7#3 →
      (calcStep c t).toNat = (t.fns.toNat % 2048 + 2048) * pow2 * mult2 / (2 * 2 ^ t.fs.toNat) / 8)

/-! ### PCM -/

/-- The bytes of a sample: an 8-bit sample is its byte shifted left by 8; a pair of 12-bit samples is three bytes, the even
sample `b0<<8 | (b1 & 0xF0)`, the odd one `b2<<8 | ((b1 & 0x0F) << 4)`, each read as a signed 16-bit value; sample k of
8 bits is at `startaddr + k`, the pair k of 12 bits at `startaddr + 3*k` (R86, R393). Derived: the signed reading and the
index are the spec's decision D32 (entry 18). -/
def Obligations.PcmSamplesAreAssembledFromTheirBytes : Prop :=
  ∀ (m : Rom) (t : Slot) (k : Nat) (b0 b1 b2 : Byte),
    (t.bits = .eight → b0 = memRead m (t.startaddr.toNat + k) →
      pcmSample m t k = (BitVec.ofNat 16 (b0.toNat * 256)).toInt) ∧
    (t.bits = .twelve → b0 = memRead m (t.startaddr.toNat + 3 * k) → b1 = memRead m (t.startaddr.toNat + 3 * k + 1) →
      b2 = memRead m (t.startaddr.toNat + 3 * k + 2) →
      pcmSample m t (2 * k) = (BitVec.ofNat 16 (b0.toNat * 256 + b1.toNat / 16 * 16)).toInt ∧
      pcmSample m t (2 * k + 1) = (BitVec.ofNat 16 (b2.toNat * 256 + b1.toNat % 16 * 16)).toInt)

/-- With the step `1 << 16` and direction +1 a slot that starts at its sample 0 fetches its samples in order until the first
loop event: before tick k, up to the end address, no loop event has happened, and the fetched value is `b[k] << 8` for
8-bit contents, `h0<<8 | (mix & 0xF0)` and `h1<<8 | ((mix & 0xF) << 4)` in turn for 12-bit triples `(h0, mix, h1)`, each
read as a signed 16-bit value (R400). Sample 0 is at the pointer 0 under RELATIVE and at the start address under
ABSOLUTE (R390, R391). -/
def Obligations.UnitStepPlaysTheSamplesInOrder : Prop :=
  ∀ (c : Config) (m : Rom) (t u : Slot) (k origin : Nat),
    origin = (if c.pcmAddrMode = .relative then 0 else t.startaddr.toNat) → t.step = 65536#32 →
    t.loopDirection = .forward → t.stepptr = BitVec.ofNat 64 (origin * 65536) → origin + k ≤ t.endaddr.toNat →
    u = (fun v => (advanceAndLoop v).1)^[k] t →
    (∀ j : Nat, j < k → (advanceAndLoop ((fun v => (advanceAndLoop v).1)^[j] t)).2 = false) ∧
    (t.bits = .eight → pcmSample m u (sampleIndex c u u.stepptr.toInt) =
      (BitVec.ofNat 16 ((memRead m (t.startaddr.toNat + k)).toNat * 256)).toInt) ∧
    (t.bits = .twelve → pcmSample m u (sampleIndex c u u.stepptr.toInt) =
      if k % 2 = 0 then
        (BitVec.ofNat 16 ((memRead m (t.startaddr.toNat + k / 2 * 3)).toNat * 256 +
          (memRead m (t.startaddr.toNat + k / 2 * 3 + 1)).toNat / 16 * 16)).toInt
      else
        (BitVec.ofNat 16 ((memRead m (t.startaddr.toNat + k / 2 * 3 + 2)).toNat * 256 +
          (memRead m (t.startaddr.toNat + k / 2 * 3 + 1)).toNat % 16 * 16)).toInt)

/-- The forward loop, `loop_direction = +1` and `altloop = 0`, past the end: one loop length back, then snapped to the loop
point and, failing that, to the end, the fraction kept; the pointer is at most the end afterwards, and not below 0 when the
loop point does not lie beyond the end (R395, R399). Reverse playback below the loop point: the direction turns to +1 and
the pointer snaps to the loop point, the fraction kept (R397). Either is a loop event; otherwise nothing happens, and only
the tests of the current direction are made. Derived: the fraction is decision D32, the units conflict C7. -/
def Obligations.ForwardLoopWrapsAndReverseTurns : Prop :=
  (∀ (t : Slot) (p q : Int), p = t.stepptr.toInt → t.loopDirection = .forward →
    q = p - ((t.endaddr.toNat : Int) - t.loopaddr.toNat) * 65536 →
    (p / 65536 ≤ t.endaddr.toNat → loopCheck t = (t, false)) ∧
    (t.altloop = false → (t.endaddr.toNat : Int) < p / 65536 →
      (loopCheck t).2 = true ∧ { (loopCheck t).1 with stepptr := t.stepptr } = t ∧
      (loopCheck t).1.stepptr.toInt =
        (if q / 65536 ≤ t.endaddr.toNat then q
          else if t.loopaddr.toNat ≤ t.endaddr.toNat then t.loopaddr.toNat * 65536 + q % 65536
          else t.endaddr.toNat * 65536 + q % 65536) ∧
      (loopCheck t).1.stepptr.toInt / 65536 ≤ t.endaddr.toNat ∧
      (t.loopaddr.toNat ≤ t.endaddr.toNat → 0 ≤ (loopCheck t).1.stepptr.toInt))) ∧
  ∀ t : Slot, t.loopDirection = .reverse →
    ((t.loopaddr.toNat : Int) ≤ t.stepptr.toInt / 65536 → loopCheck t = (t, false)) ∧
    (t.stepptr.toInt / 65536 < t.loopaddr.toNat →
      (loopCheck t).2 = true ∧
      { (loopCheck t).1 with stepptr := t.stepptr, loopDirection := t.loopDirection } = t ∧
      (loopCheck t).1.loopDirection = .forward ∧
      (loopCheck t).1.stepptr.toInt = t.loopaddr.toNat * 65536 + t.stepptr.toInt % 65536)

/-- The alternate loop past the end turns the direction to −1 and snaps the pointer to the end address with its fraction
kept, with a loop event, and changes nothing else (R396). -/
def Obligations.AlternateLoopTurnsAtTheEnd : Prop :=
  ∀ t : Slot, t.loopDirection = .forward → t.altloop = true → (t.endaddr.toNat : Int) < t.stepptr.toInt / 65536 →
    (loopCheck t).2 = true ∧
      { (loopCheck t).1 with stepptr := t.stepptr, loopDirection := t.loopDirection } = t ∧
      (loopCheck t).1.loopDirection = .reverse ∧
      (loopCheck t).1.stepptr.toInt = t.endaddr.toNat * 65536 + t.stepptr.toInt % 65536

/-- One PCM tick at sample i: the sample fetched at the old pointer goes, after the envelope and LFO tick, to the ACC
buffer through gain, 18-bit saturation, restore shift and saturating add when `accon = 1`, else to the direct buffer
through the slot volume; the other buffer and every other sample stay. Then the slot advances and loops, and a loop event
sets the slot's end marker if it owns one. No other slot changes (R392, R398, R420 to R424, R434; the order, the gains and
the marker are decisions D11, D32, D33 and D34). -/
def Obligations.PcmTickMixesThenAdvances : Prop :=
  ∀ (s t : State) (ix : SlotIx) (i : Nat) (smp f : Int) (v : Slot) (ch : Frame → BitVec 32) (lv : BitVec 4),
    t = pcmTick ix i s → v = updateLfo s.config (updateEnvelope (s.slot ix)) →
    smp = pcmSample s.rom (s.slot ix) (sampleIndex s.config (s.slot ix) (s.slot ix).stepptr.toInt) →
    f = (if v.tl = 0#7 then 2 else v.tl.toNat * 2) →
    (ch, lv) ∈ [(Frame.ch0, v.ch0Level), (Frame.ch1, v.ch1Level), (Frame.ch2, v.ch2Level), (Frame.ch3, v.ch3Level)] →
    { t with slots := s.slots, endStatus := s.endStatus, mixbuf := s.mixbuf, accbuf := s.accbuf } = s ∧
    (∀ j : SlotIx, t.slot j = if j = ix then (loopCheck (pcmAdvance v)).1 else s.slot j) ∧
    (∀ k, t.endStatus.getLsbD k =
      (s.endStatus.getLsbD k || ((loopCheck (pcmAdvance v)).2 && decide (ix.val = 4 * k)))) ∧
    t.mixbuf.length = s.mixbuf.length ∧ t.accbuf.length = s.accbuf.length ∧
    (∀ j, j ≠ i → t.mixbuf[j]? = s.mixbuf[j]? ∧ t.accbuf[j]? = s.accbuf[j]?) ∧
    (v.accon = true →
      t.mixbuf = s.mixbuf ∧ ∀ a, s.accbuf[i]? = some a → ∃ b, t.accbuf[i]? = some b ∧
        ch b = BitVec.ofInt 32 (clamp
          ((ch a).toInt + clamp (smp * f) (-131072) 131071 / 4 * attnAt s.config lv / 65536) (-131072) 131071)) ∧
    (v.accon = false →
      t.accbuf = s.accbuf ∧ ∀ a, s.mixbuf[i]? = some a → ∃ b, t.mixbuf[i]? = some b ∧
        ch b = BitVec.ofInt 32
          ((ch a).toInt + smp * min (slotVolume s.config v * attnAt s.config lv / 65536) 65536 / 65536))

/-! ### Whole-machine properties -/

/-- During an `update`, after any number k of groups, the direct buffer is within ±k·4·32768, so within ±1 572 864 after all
twelve, and the ACC buffer within 18 bits; the folded buffer is within ±1 703 936 (R428, R437). The order of the groups is
the spec's decision D37, the 18-bit range its decision D34. -/
def Obligations.MixBuffersStayInRangeAfterEachGroup : Prop :=
  ∀ (n : Nat) (s : State), GoodState s →
    (∀ (k : Nat) (u : State), k ≤ 12 →
      u = ([0, 1, 2, 3, 4, 5, 6, 7, 8, 9, 10, 11].take k).foldl renderGroup (s.openCall n) →
      (∀ m ∈ u.mixbuf, ∀ x ∈ [m.ch0, m.ch1, m.ch2, m.ch3], x.toInt.natAbs ≤ k * (4 * 32768)) ∧
      ∀ a ∈ u.accbuf, GoodAccFrame a) ∧
    ∀ f ∈ List.zipWith foldFrame (renderAll (s.openCall n)).mixbuf (renderAll (s.openCall n)).accbuf,
      ∀ x ∈ [f.ch0, f.ch1, f.ch2, f.ch3], x.toInt.natAbs ≤ 1703936

/-- Every step keeps the state good: the canonical form of the PCM memory, the ranges of R35 and R36, the PCM fields that no
write reaches (R34), the periods of R212, the busy flag (R153), the unused end markers (R151) and the 18-bit range of the
ACC buffer (R428). -/
def Obligations.EveryStepKeepsTheStateGood : Prop := ∀ s t : State, GoodState s → step s = .next t → GoodState t

/-- The state after reset is good (R540, R541). -/
def Obligations.ResetStateIsGood : Prop := GoodState State.reset

/-- Whatever an instance sets of the table parameters: the pitch-LFO table is 1.0 at depth 0 and on the "off" wave (R272),
the amplitude-LFO table is 0 on the "off" wave (R273), the amplitude gain is 1 at `ams = 0` and at amplitude 0 (R274), the
detune rows 0 and 4 are zero, rows 1 to 3 not negative, rows 5 to 7 not positive (R282), and the attenuation table is 65536
at level 0 and 1 at levels 13 to 15 (R432). Derived: the "off" wave is the spec's decision D23, the gain its decision D21,
the detune its decision D44, the attenuation its decision D49 (entry 25). -/
def Obligations.TablesKeepWhatTheSpecFixes : Prop :=
  ∀ (c : Config) (w : BitVec 2) (k : BitVec 3) (ams : BitVec 2) (i a kc : Nat) (d : BitVec 3) (l : BitVec 4),
    (w = 0#2 ∨ k = 0#3 → plfoAt c w k i = 2 ^ 53) ∧ (w = 0#2 → alfoAt c w i = 0) ∧
    (ams = 0#2 ∨ a = 0 → alfoGainAt c ams a = 65536) ∧
    (d ∈ [0#3, 4#3] → (detuneAt c d kc).num = 0) ∧ (d ∈ [1#3, 2#3, 3#3] → 0 ≤ (detuneAt c d kc).num) ∧
    (d ∈ [5#3, 6#3, 7#3] → (detuneAt c d kc).num ≤ 0) ∧
    (l = 0#4 → attnAt c l = 65536) ∧ (13 ≤ l.toNat → attnAt c l = 1)
end

