-- ==== Sys2Proof/Laws/State.lean ====
section
/-! SUPPORT. The fields of the state after each named update: one lemma for each field, so that no later proof unfolds a
record update, and the read-back laws of slots, groups and port registers. -/

namespace Sys2Proof.Machine

open Sys2Proof

/-! ### Read-back -/

theorem modSlot_eq (s : State) (i : SlotIx) (f : Slot → Slot) : s.modSlot i f = s.setSlot i (f (s.slot i)) := rfl

theorem slot_setSlot (s : State) (i j : SlotIx) (t : Slot) :
    (s.setSlot i t).slot j = if j = i then t else s.slot j := by
  simp only [State.slot, State.setSlot, Fin.getElem_fin, Vector.getElem_set, Fin.ext_iff]
  split <;> split <;> first | rfl | omega

theorem group_setGroup (s : State) (g h : GroupIx) (x : Group) :
    (s.setGroup g x).group h = if h = g then x else s.group h := by
  simp only [State.group, State.setGroup, Fin.getElem_fin, Vector.getElem_set, Fin.ext_iff]
  split <;> split <;> first | rfl | omega

theorem reg_setReg (s : State) (p q : Port) (d : Byte) :
    (s.setReg p d).reg q = if q = p then d else s.reg q := by
  simp only [State.reg, State.setReg, Fin.getElem_fin, Vector.getElem_set, BitVec.val_toFin, BitVec.toNat_eq]
  split <;> split <;> first | rfl | omega

@[simp] theorem slot_setSlot_self (s : State) (i : SlotIx) (t : Slot) : (s.setSlot i t).slot i = t := by
  simp [slot_setSlot]

@[simp] theorem slot_setGroup (s : State) (g : GroupIx) (x : Group) (i : SlotIx) :
    (s.setGroup g x).slot i = s.slot i := rfl

@[simp] theorem slot_setReg (s : State) (p : Port) (d : Byte) (i : SlotIx) : (s.setReg p d).slot i = s.slot i := rfl

@[simp] theorem group_setSlot (s : State) (i : SlotIx) (t : Slot) (g : GroupIx) :
    (s.setSlot i t).group g = s.group g := rfl

@[simp] theorem group_setReg (s : State) (p : Port) (d : Byte) (g : GroupIx) : (s.setReg p d).group g = s.group g := rfl

@[simp] theorem reg_setSlot (s : State) (i : SlotIx) (t : Slot) (p : Port) : (s.setSlot i t).reg p = s.reg p := rfl

@[simp] theorem reg_setGroup (s : State) (g : GroupIx) (x : Group) (p : Port) :
    (s.setGroup g x).reg p = s.reg p := rfl

/-- Two states with the same slots, read one by one, have the same slot vector. -/
theorem slots_ext {s t : State} (h : ∀ i, s.slot i = t.slot i) : s.slots = t.slots :=
  Vector.ext fun i hi => h ⟨i, hi⟩

/-- Two states with the same groups, read one by one, have the same group vector. -/
theorem groups_ext {s t : State} (h : ∀ g, s.group g = t.group g) : s.groups = t.groups :=
  Vector.ext fun i hi => h ⟨i, hi⟩

/-- Two states with the same port registers, read one by one, have the same register vector. -/
theorem regs_ext {s t : State} (h : ∀ p, s.reg p = t.reg p) : s.regs = t.regs :=
  Vector.ext fun i hi => by simpa [State.reg, BitVec.toNat_ofNat, Nat.mod_eq_of_lt hi] using h (BitVec.ofNat 4 i)

/-! ### `State.setSlot` -/

@[simp] theorem slots_setSlot (s : State) (i : SlotIx) (t : Slot) : (s.setSlot i t).slots = s.slots.set i t := rfl
@[simp] theorem groups_setSlot (s : State) (i : SlotIx) (t : Slot) : (s.setSlot i t).groups = s.groups := rfl
@[simp] theorem regs_setSlot (s : State) (i : SlotIx) (t : Slot) : (s.setSlot i t).regs = s.regs := rfl
@[simp] theorem timerA_setSlot (s : State) (i : SlotIx) (t : Slot) : (s.setSlot i t).timerA = s.timerA := rfl
@[simp] theorem timerB_setSlot (s : State) (i : SlotIx) (t : Slot) : (s.setSlot i t).timerB = s.timerB := rfl
@[simp] theorem timerAPeriod_setSlot (s : State) (i : SlotIx) (t : Slot) :
    (s.setSlot i t).timerAPeriod = s.timerAPeriod := rfl
@[simp] theorem timerBPeriod_setSlot (s : State) (i : SlotIx) (t : Slot) :
    (s.setSlot i t).timerBPeriod = s.timerBPeriod := rfl
@[simp] theorem enable_setSlot (s : State) (i : SlotIx) (t : Slot) : (s.setSlot i t).enable = s.enable := rfl
@[simp] theorem status_setSlot (s : State) (i : SlotIx) (t : Slot) : (s.setSlot i t).status = s.status := rfl
@[simp] theorem irqstate_setSlot (s : State) (i : SlotIx) (t : Slot) : (s.setSlot i t).irqstate = s.irqstate := rfl
@[simp] theorem endStatus_setSlot (s : State) (i : SlotIx) (t : Slot) : (s.setSlot i t).endStatus = s.endStatus := rfl
@[simp] theorem busyFlag_setSlot (s : State) (i : SlotIx) (t : Slot) : (s.setSlot i t).busyFlag = s.busyFlag := rfl
@[simp] theorem extAddress_setSlot (s : State) (i : SlotIx) (t : Slot) :
    (s.setSlot i t).extAddress = s.extAddress := rfl
@[simp] theorem extRw_setSlot (s : State) (i : SlotIx) (t : Slot) : (s.setSlot i t).extRw = s.extRw := rfl
@[simp] theorem extReadlatch_setSlot (s : State) (i : SlotIx) (t : Slot) :
    (s.setSlot i t).extReadlatch = s.extReadlatch := rfl
@[simp] theorem mixbuf_setSlot (s : State) (i : SlotIx) (t : Slot) : (s.setSlot i t).mixbuf = s.mixbuf := rfl
@[simp] theorem accbuf_setSlot (s : State) (i : SlotIx) (t : Slot) : (s.setSlot i t).accbuf = s.accbuf := rfl
@[simp] theorem rom_setSlot (s : State) (i : SlotIx) (t : Slot) : (s.setSlot i t).rom = s.rom := rfl
@[simp] theorem pos_setSlot (s : State) (i : SlotIx) (t : Slot) : (s.setSlot i t).pos = s.pos := rfl
@[simp] theorem config_setSlot (s : State) (i : SlotIx) (t : Slot) : (s.setSlot i t).config = s.config := rfl
@[simp] theorem input_setSlot (s : State) (i : SlotIx) (t : Slot) : (s.setSlot i t).input = s.input := rfl
@[simp] theorem result_setSlot (s : State) (i : SlotIx) (t : Slot) : (s.setSlot i t).result = s.result := rfl
@[simp] theorem events_setSlot (s : State) (i : SlotIx) (t : Slot) : (s.setSlot i t).events = s.events := rfl

/-! ### `State.setGroup` -/

@[simp] theorem slots_setGroup (s : State) (g : GroupIx) (x : Group) : (s.setGroup g x).slots = s.slots := rfl
@[simp] theorem groups_setGroup (s : State) (g : GroupIx) (x : Group) :
    (s.setGroup g x).groups = s.groups.set g x := rfl
@[simp] theorem regs_setGroup (s : State) (g : GroupIx) (x : Group) : (s.setGroup g x).regs = s.regs := rfl
@[simp] theorem timerA_setGroup (s : State) (g : GroupIx) (x : Group) : (s.setGroup g x).timerA = s.timerA := rfl
@[simp] theorem timerB_setGroup (s : State) (g : GroupIx) (x : Group) : (s.setGroup g x).timerB = s.timerB := rfl
@[simp] theorem timerAPeriod_setGroup (s : State) (g : GroupIx) (x : Group) :
    (s.setGroup g x).timerAPeriod = s.timerAPeriod := rfl
@[simp] theorem timerBPeriod_setGroup (s : State) (g : GroupIx) (x : Group) :
    (s.setGroup g x).timerBPeriod = s.timerBPeriod := rfl
@[simp] theorem enable_setGroup (s : State) (g : GroupIx) (x : Group) : (s.setGroup g x).enable = s.enable := rfl
@[simp] theorem status_setGroup (s : State) (g : GroupIx) (x : Group) : (s.setGroup g x).status = s.status := rfl
@[simp] theorem irqstate_setGroup (s : State) (g : GroupIx) (x : Group) : (s.setGroup g x).irqstate = s.irqstate := rfl
@[simp] theorem endStatus_setGroup (s : State) (g : GroupIx) (x : Group) :
    (s.setGroup g x).endStatus = s.endStatus := rfl
@[simp] theorem busyFlag_setGroup (s : State) (g : GroupIx) (x : Group) : (s.setGroup g x).busyFlag = s.busyFlag := rfl
@[simp] theorem extAddress_setGroup (s : State) (g : GroupIx) (x : Group) :
    (s.setGroup g x).extAddress = s.extAddress := rfl
@[simp] theorem extRw_setGroup (s : State) (g : GroupIx) (x : Group) : (s.setGroup g x).extRw = s.extRw := rfl
@[simp] theorem extReadlatch_setGroup (s : State) (g : GroupIx) (x : Group) :
    (s.setGroup g x).extReadlatch = s.extReadlatch := rfl
@[simp] theorem mixbuf_setGroup (s : State) (g : GroupIx) (x : Group) : (s.setGroup g x).mixbuf = s.mixbuf := rfl
@[simp] theorem accbuf_setGroup (s : State) (g : GroupIx) (x : Group) : (s.setGroup g x).accbuf = s.accbuf := rfl
@[simp] theorem rom_setGroup (s : State) (g : GroupIx) (x : Group) : (s.setGroup g x).rom = s.rom := rfl
@[simp] theorem pos_setGroup (s : State) (g : GroupIx) (x : Group) : (s.setGroup g x).pos = s.pos := rfl
@[simp] theorem config_setGroup (s : State) (g : GroupIx) (x : Group) : (s.setGroup g x).config = s.config := rfl
@[simp] theorem input_setGroup (s : State) (g : GroupIx) (x : Group) : (s.setGroup g x).input = s.input := rfl
@[simp] theorem result_setGroup (s : State) (g : GroupIx) (x : Group) : (s.setGroup g x).result = s.result := rfl
@[simp] theorem events_setGroup (s : State) (g : GroupIx) (x : Group) : (s.setGroup g x).events = s.events := rfl

/-! ### `State.setReg` -/

@[simp] theorem slots_setReg (s : State) (p : Port) (d : Byte) : (s.setReg p d).slots = s.slots := rfl
@[simp] theorem groups_setReg (s : State) (p : Port) (d : Byte) : (s.setReg p d).groups = s.groups := rfl
@[simp] theorem regs_setReg (s : State) (p : Port) (d : Byte) : (s.setReg p d).regs = s.regs.set p.toFin d := rfl
@[simp] theorem timerA_setReg (s : State) (p : Port) (d : Byte) : (s.setReg p d).timerA = s.timerA := rfl
@[simp] theorem timerB_setReg (s : State) (p : Port) (d : Byte) : (s.setReg p d).timerB = s.timerB := rfl
@[simp] theorem timerAPeriod_setReg (s : State) (p : Port) (d : Byte) :
    (s.setReg p d).timerAPeriod = s.timerAPeriod := rfl
@[simp] theorem timerBPeriod_setReg (s : State) (p : Port) (d : Byte) :
    (s.setReg p d).timerBPeriod = s.timerBPeriod := rfl
@[simp] theorem enable_setReg (s : State) (p : Port) (d : Byte) : (s.setReg p d).enable = s.enable := rfl
@[simp] theorem status_setReg (s : State) (p : Port) (d : Byte) : (s.setReg p d).status = s.status := rfl
@[simp] theorem irqstate_setReg (s : State) (p : Port) (d : Byte) : (s.setReg p d).irqstate = s.irqstate := rfl
@[simp] theorem endStatus_setReg (s : State) (p : Port) (d : Byte) : (s.setReg p d).endStatus = s.endStatus := rfl
@[simp] theorem busyFlag_setReg (s : State) (p : Port) (d : Byte) : (s.setReg p d).busyFlag = s.busyFlag := rfl
@[simp] theorem extAddress_setReg (s : State) (p : Port) (d : Byte) : (s.setReg p d).extAddress = s.extAddress := rfl
@[simp] theorem extRw_setReg (s : State) (p : Port) (d : Byte) : (s.setReg p d).extRw = s.extRw := rfl
@[simp] theorem extReadlatch_setReg (s : State) (p : Port) (d : Byte) :
    (s.setReg p d).extReadlatch = s.extReadlatch := rfl
@[simp] theorem mixbuf_setReg (s : State) (p : Port) (d : Byte) : (s.setReg p d).mixbuf = s.mixbuf := rfl
@[simp] theorem accbuf_setReg (s : State) (p : Port) (d : Byte) : (s.setReg p d).accbuf = s.accbuf := rfl
@[simp] theorem rom_setReg (s : State) (p : Port) (d : Byte) : (s.setReg p d).rom = s.rom := rfl
@[simp] theorem pos_setReg (s : State) (p : Port) (d : Byte) : (s.setReg p d).pos = s.pos := rfl
@[simp] theorem config_setReg (s : State) (p : Port) (d : Byte) : (s.setReg p d).config = s.config := rfl
@[simp] theorem input_setReg (s : State) (p : Port) (d : Byte) : (s.setReg p d).input = s.input := rfl
@[simp] theorem result_setReg (s : State) (p : Port) (d : Byte) : (s.setReg p d).result = s.result := rfl
@[simp] theorem events_setReg (s : State) (p : Port) (d : Byte) : (s.setReg p d).events = s.events := rfl

/-! ### `State.emit` -/

@[simp] theorem slots_emit (s : State) (e : Event) : (s.emit e).slots = s.slots := rfl
@[simp] theorem groups_emit (s : State) (e : Event) : (s.emit e).groups = s.groups := rfl
@[simp] theorem regs_emit (s : State) (e : Event) : (s.emit e).regs = s.regs := rfl
@[simp] theorem timerA_emit (s : State) (e : Event) : (s.emit e).timerA = s.timerA := rfl
@[simp] theorem timerB_emit (s : State) (e : Event) : (s.emit e).timerB = s.timerB := rfl
@[simp] theorem timerAPeriod_emit (s : State) (e : Event) : (s.emit e).timerAPeriod = s.timerAPeriod := rfl
@[simp] theorem timerBPeriod_emit (s : State) (e : Event) : (s.emit e).timerBPeriod = s.timerBPeriod := rfl
@[simp] theorem enable_emit (s : State) (e : Event) : (s.emit e).enable = s.enable := rfl
@[simp] theorem status_emit (s : State) (e : Event) : (s.emit e).status = s.status := rfl
@[simp] theorem irqstate_emit (s : State) (e : Event) : (s.emit e).irqstate = s.irqstate := rfl
@[simp] theorem endStatus_emit (s : State) (e : Event) : (s.emit e).endStatus = s.endStatus := rfl
@[simp] theorem busyFlag_emit (s : State) (e : Event) : (s.emit e).busyFlag = s.busyFlag := rfl
@[simp] theorem extAddress_emit (s : State) (e : Event) : (s.emit e).extAddress = s.extAddress := rfl
@[simp] theorem extRw_emit (s : State) (e : Event) : (s.emit e).extRw = s.extRw := rfl
@[simp] theorem extReadlatch_emit (s : State) (e : Event) : (s.emit e).extReadlatch = s.extReadlatch := rfl
@[simp] theorem mixbuf_emit (s : State) (e : Event) : (s.emit e).mixbuf = s.mixbuf := rfl
@[simp] theorem accbuf_emit (s : State) (e : Event) : (s.emit e).accbuf = s.accbuf := rfl
@[simp] theorem rom_emit (s : State) (e : Event) : (s.emit e).rom = s.rom := rfl
@[simp] theorem pos_emit (s : State) (e : Event) : (s.emit e).pos = s.pos := rfl
@[simp] theorem config_emit (s : State) (e : Event) : (s.emit e).config = s.config := rfl
@[simp] theorem input_emit (s : State) (e : Event) : (s.emit e).input = s.input := rfl
@[simp] theorem result_emit (s : State) (e : Event) : (s.emit e).result = s.result := rfl
@[simp] theorem events_emit (s : State) (e : Event) : (s.emit e).events = s.events ++ [e] := rfl

/-! ### `State.returnByte` -/

@[simp] theorem slots_returnByte (s : State) (v : Byte) : (s.returnByte v).slots = s.slots := rfl
@[simp] theorem groups_returnByte (s : State) (v : Byte) : (s.returnByte v).groups = s.groups := rfl
@[simp] theorem regs_returnByte (s : State) (v : Byte) : (s.returnByte v).regs = s.regs := rfl
@[simp] theorem timerA_returnByte (s : State) (v : Byte) : (s.returnByte v).timerA = s.timerA := rfl
@[simp] theorem timerB_returnByte (s : State) (v : Byte) : (s.returnByte v).timerB = s.timerB := rfl
@[simp] theorem timerAPeriod_returnByte (s : State) (v : Byte) : (s.returnByte v).timerAPeriod = s.timerAPeriod := rfl
@[simp] theorem timerBPeriod_returnByte (s : State) (v : Byte) : (s.returnByte v).timerBPeriod = s.timerBPeriod := rfl
@[simp] theorem enable_returnByte (s : State) (v : Byte) : (s.returnByte v).enable = s.enable := rfl
@[simp] theorem status_returnByte (s : State) (v : Byte) : (s.returnByte v).status = s.status := rfl
@[simp] theorem irqstate_returnByte (s : State) (v : Byte) : (s.returnByte v).irqstate = s.irqstate := rfl
@[simp] theorem endStatus_returnByte (s : State) (v : Byte) : (s.returnByte v).endStatus = s.endStatus := rfl
@[simp] theorem busyFlag_returnByte (s : State) (v : Byte) : (s.returnByte v).busyFlag = s.busyFlag := rfl
@[simp] theorem extAddress_returnByte (s : State) (v : Byte) : (s.returnByte v).extAddress = s.extAddress := rfl
@[simp] theorem extRw_returnByte (s : State) (v : Byte) : (s.returnByte v).extRw = s.extRw := rfl
@[simp] theorem extReadlatch_returnByte (s : State) (v : Byte) : (s.returnByte v).extReadlatch = s.extReadlatch := rfl
@[simp] theorem mixbuf_returnByte (s : State) (v : Byte) : (s.returnByte v).mixbuf = s.mixbuf := rfl
@[simp] theorem accbuf_returnByte (s : State) (v : Byte) : (s.returnByte v).accbuf = s.accbuf := rfl
@[simp] theorem rom_returnByte (s : State) (v : Byte) : (s.returnByte v).rom = s.rom := rfl
@[simp] theorem pos_returnByte (s : State) (v : Byte) : (s.returnByte v).pos = s.pos := rfl
@[simp] theorem config_returnByte (s : State) (v : Byte) : (s.returnByte v).config = s.config := rfl
@[simp] theorem input_returnByte (s : State) (v : Byte) : (s.returnByte v).input = s.input := rfl
@[simp] theorem result_returnByte (s : State) (v : Byte) : (s.returnByte v).result = .byte v := rfl
@[simp] theorem events_returnByte (s : State) (v : Byte) : (s.returnByte v).events = s.events := rfl

/-! ### `State.reloadLatch` -/

@[simp] theorem slots_reloadLatch (s : State) : (s.reloadLatch).slots = s.slots := rfl
@[simp] theorem groups_reloadLatch (s : State) : (s.reloadLatch).groups = s.groups := rfl
@[simp] theorem regs_reloadLatch (s : State) : (s.reloadLatch).regs = s.regs := rfl
@[simp] theorem timerA_reloadLatch (s : State) : (s.reloadLatch).timerA = s.timerA := rfl
@[simp] theorem timerB_reloadLatch (s : State) : (s.reloadLatch).timerB = s.timerB := rfl
@[simp] theorem timerAPeriod_reloadLatch (s : State) : (s.reloadLatch).timerAPeriod = s.timerAPeriod := rfl
@[simp] theorem timerBPeriod_reloadLatch (s : State) : (s.reloadLatch).timerBPeriod = s.timerBPeriod := rfl
@[simp] theorem enable_reloadLatch (s : State) : (s.reloadLatch).enable = s.enable := rfl
@[simp] theorem status_reloadLatch (s : State) : (s.reloadLatch).status = s.status := rfl
@[simp] theorem irqstate_reloadLatch (s : State) : (s.reloadLatch).irqstate = s.irqstate := rfl
@[simp] theorem endStatus_reloadLatch (s : State) : (s.reloadLatch).endStatus = s.endStatus := rfl
@[simp] theorem busyFlag_reloadLatch (s : State) : (s.reloadLatch).busyFlag = s.busyFlag := rfl
@[simp] theorem extAddress_reloadLatch (s : State) : (s.reloadLatch).extAddress = s.extAddress := rfl
@[simp] theorem extRw_reloadLatch (s : State) : (s.reloadLatch).extRw = s.extRw := rfl
@[simp] theorem extReadlatch_reloadLatch (s : State) :
    (s.reloadLatch).extReadlatch = memRead s.rom s.extAddress.toNat := rfl
@[simp] theorem mixbuf_reloadLatch (s : State) : (s.reloadLatch).mixbuf = s.mixbuf := rfl
@[simp] theorem accbuf_reloadLatch (s : State) : (s.reloadLatch).accbuf = s.accbuf := rfl
@[simp] theorem rom_reloadLatch (s : State) : (s.reloadLatch).rom = s.rom := rfl
@[simp] theorem pos_reloadLatch (s : State) : (s.reloadLatch).pos = s.pos := rfl
@[simp] theorem config_reloadLatch (s : State) : (s.reloadLatch).config = s.config := rfl
@[simp] theorem input_reloadLatch (s : State) : (s.reloadLatch).input = s.input := rfl
@[simp] theorem result_reloadLatch (s : State) : (s.reloadLatch).result = s.result := rfl
@[simp] theorem events_reloadLatch (s : State) : (s.reloadLatch).events = s.events := rfl

/-! ### `State.advanceExt` -/

@[simp] theorem slots_advanceExt (s : State) : (s.advanceExt).slots = s.slots := rfl
@[simp] theorem groups_advanceExt (s : State) : (s.advanceExt).groups = s.groups := rfl
@[simp] theorem regs_advanceExt (s : State) : (s.advanceExt).regs = s.regs := rfl
@[simp] theorem timerA_advanceExt (s : State) : (s.advanceExt).timerA = s.timerA := rfl
@[simp] theorem timerB_advanceExt (s : State) : (s.advanceExt).timerB = s.timerB := rfl
@[simp] theorem timerAPeriod_advanceExt (s : State) : (s.advanceExt).timerAPeriod = s.timerAPeriod := rfl
@[simp] theorem timerBPeriod_advanceExt (s : State) : (s.advanceExt).timerBPeriod = s.timerBPeriod := rfl
@[simp] theorem enable_advanceExt (s : State) : (s.advanceExt).enable = s.enable := rfl
@[simp] theorem status_advanceExt (s : State) : (s.advanceExt).status = s.status := rfl
@[simp] theorem irqstate_advanceExt (s : State) : (s.advanceExt).irqstate = s.irqstate := rfl
@[simp] theorem endStatus_advanceExt (s : State) : (s.advanceExt).endStatus = s.endStatus := rfl
@[simp] theorem busyFlag_advanceExt (s : State) : (s.advanceExt).busyFlag = s.busyFlag := rfl
@[simp] theorem extAddress_advanceExt (s : State) : (s.advanceExt).extAddress = s.extAddress + 1#23 := rfl
@[simp] theorem extRw_advanceExt (s : State) : (s.advanceExt).extRw = s.extRw := rfl
@[simp] theorem extReadlatch_advanceExt (s : State) :
    (s.advanceExt).extReadlatch = memRead s.rom (s.extAddress + 1#23).toNat := rfl
@[simp] theorem mixbuf_advanceExt (s : State) : (s.advanceExt).mixbuf = s.mixbuf := rfl
@[simp] theorem accbuf_advanceExt (s : State) : (s.advanceExt).accbuf = s.accbuf := rfl
@[simp] theorem rom_advanceExt (s : State) : (s.advanceExt).rom = s.rom := rfl
@[simp] theorem pos_advanceExt (s : State) : (s.advanceExt).pos = s.pos := rfl
@[simp] theorem config_advanceExt (s : State) : (s.advanceExt).config = s.config := rfl
@[simp] theorem input_advanceExt (s : State) : (s.advanceExt).input = s.input := rfl
@[simp] theorem result_advanceExt (s : State) : (s.advanceExt).result = s.result := rfl
@[simp] theorem events_advanceExt (s : State) : (s.advanceExt).events = s.events := rfl

/-! ### `State.recomputePeriods` -/

@[simp] theorem slots_recomputePeriods (s : State) : (s.recomputePeriods).slots = s.slots := rfl
@[simp] theorem groups_recomputePeriods (s : State) : (s.recomputePeriods).groups = s.groups := rfl
@[simp] theorem regs_recomputePeriods (s : State) : (s.recomputePeriods).regs = s.regs := rfl
@[simp] theorem timerA_recomputePeriods (s : State) : (s.recomputePeriods).timerA = s.timerA := rfl
@[simp] theorem timerB_recomputePeriods (s : State) : (s.recomputePeriods).timerB = s.timerB := rfl
@[simp] theorem timerAPeriod_recomputePeriods (s : State) :
    (s.recomputePeriods).timerAPeriod = timerAPeriodOf s.timerA := rfl
@[simp] theorem timerBPeriod_recomputePeriods (s : State) :
    (s.recomputePeriods).timerBPeriod = timerBPeriodOf s.timerB := rfl
@[simp] theorem enable_recomputePeriods (s : State) : (s.recomputePeriods).enable = s.enable := rfl
@[simp] theorem status_recomputePeriods (s : State) : (s.recomputePeriods).status = s.status := rfl
@[simp] theorem irqstate_recomputePeriods (s : State) : (s.recomputePeriods).irqstate = s.irqstate := rfl
@[simp] theorem endStatus_recomputePeriods (s : State) : (s.recomputePeriods).endStatus = s.endStatus := rfl
@[simp] theorem busyFlag_recomputePeriods (s : State) : (s.recomputePeriods).busyFlag = s.busyFlag := rfl
@[simp] theorem extAddress_recomputePeriods (s : State) : (s.recomputePeriods).extAddress = s.extAddress := rfl
@[simp] theorem extRw_recomputePeriods (s : State) : (s.recomputePeriods).extRw = s.extRw := rfl
@[simp] theorem extReadlatch_recomputePeriods (s : State) : (s.recomputePeriods).extReadlatch = s.extReadlatch := rfl
@[simp] theorem mixbuf_recomputePeriods (s : State) : (s.recomputePeriods).mixbuf = s.mixbuf := rfl
@[simp] theorem accbuf_recomputePeriods (s : State) : (s.recomputePeriods).accbuf = s.accbuf := rfl
@[simp] theorem rom_recomputePeriods (s : State) : (s.recomputePeriods).rom = s.rom := rfl
@[simp] theorem pos_recomputePeriods (s : State) : (s.recomputePeriods).pos = s.pos := rfl
@[simp] theorem config_recomputePeriods (s : State) : (s.recomputePeriods).config = s.config := rfl
@[simp] theorem input_recomputePeriods (s : State) : (s.recomputePeriods).input = s.input := rfl
@[simp] theorem result_recomputePeriods (s : State) : (s.recomputePeriods).result = s.result := rfl
@[simp] theorem events_recomputePeriods (s : State) : (s.recomputePeriods).events = s.events := rfl

/-! ### `State.mixDirect` -/

@[simp] theorem slots_mixDirect (s : State) (i : Nat) (v : Channel → Int) : (s.mixDirect i v).slots = s.slots := rfl
@[simp] theorem groups_mixDirect (s : State) (i : Nat) (v : Channel → Int) : (s.mixDirect i v).groups = s.groups := rfl
@[simp] theorem regs_mixDirect (s : State) (i : Nat) (v : Channel → Int) : (s.mixDirect i v).regs = s.regs := rfl
@[simp] theorem timerA_mixDirect (s : State) (i : Nat) (v : Channel → Int) : (s.mixDirect i v).timerA = s.timerA := rfl
@[simp] theorem timerB_mixDirect (s : State) (i : Nat) (v : Channel → Int) : (s.mixDirect i v).timerB = s.timerB := rfl
@[simp] theorem timerAPeriod_mixDirect (s : State) (i : Nat) (v : Channel → Int) :
    (s.mixDirect i v).timerAPeriod = s.timerAPeriod := rfl
@[simp] theorem timerBPeriod_mixDirect (s : State) (i : Nat) (v : Channel → Int) :
    (s.mixDirect i v).timerBPeriod = s.timerBPeriod := rfl
@[simp] theorem enable_mixDirect (s : State) (i : Nat) (v : Channel → Int) : (s.mixDirect i v).enable = s.enable := rfl
@[simp] theorem status_mixDirect (s : State) (i : Nat) (v : Channel → Int) : (s.mixDirect i v).status = s.status := rfl
@[simp] theorem irqstate_mixDirect (s : State) (i : Nat) (v : Channel → Int) :
    (s.mixDirect i v).irqstate = s.irqstate := rfl
@[simp] theorem endStatus_mixDirect (s : State) (i : Nat) (v : Channel → Int) :
    (s.mixDirect i v).endStatus = s.endStatus := rfl
@[simp] theorem busyFlag_mixDirect (s : State) (i : Nat) (v : Channel → Int) :
    (s.mixDirect i v).busyFlag = s.busyFlag := rfl
@[simp] theorem extAddress_mixDirect (s : State) (i : Nat) (v : Channel → Int) :
    (s.mixDirect i v).extAddress = s.extAddress := rfl
@[simp] theorem extRw_mixDirect (s : State) (i : Nat) (v : Channel → Int) : (s.mixDirect i v).extRw = s.extRw := rfl
@[simp] theorem extReadlatch_mixDirect (s : State) (i : Nat) (v : Channel → Int) :
    (s.mixDirect i v).extReadlatch = s.extReadlatch := rfl
@[simp] theorem mixbuf_mixDirect (s : State) (i : Nat) (v : Channel → Int) :
    (s.mixDirect i v).mixbuf = s.mixbuf.modify i fun f => f.combine addDirect v := rfl
@[simp] theorem accbuf_mixDirect (s : State) (i : Nat) (v : Channel → Int) : (s.mixDirect i v).accbuf = s.accbuf := rfl
@[simp] theorem rom_mixDirect (s : State) (i : Nat) (v : Channel → Int) : (s.mixDirect i v).rom = s.rom := rfl
@[simp] theorem pos_mixDirect (s : State) (i : Nat) (v : Channel → Int) : (s.mixDirect i v).pos = s.pos := rfl
@[simp] theorem config_mixDirect (s : State) (i : Nat) (v : Channel → Int) : (s.mixDirect i v).config = s.config := rfl
@[simp] theorem input_mixDirect (s : State) (i : Nat) (v : Channel → Int) : (s.mixDirect i v).input = s.input := rfl
@[simp] theorem result_mixDirect (s : State) (i : Nat) (v : Channel → Int) : (s.mixDirect i v).result = s.result := rfl
@[simp] theorem events_mixDirect (s : State) (i : Nat) (v : Channel → Int) : (s.mixDirect i v).events = s.events := rfl

/-! ### `State.mixAcc` -/

@[simp] theorem slots_mixAcc (s : State) (i : Nat) (v : Channel → Int) : (s.mixAcc i v).slots = s.slots := rfl
@[simp] theorem groups_mixAcc (s : State) (i : Nat) (v : Channel → Int) : (s.mixAcc i v).groups = s.groups := rfl
@[simp] theorem regs_mixAcc (s : State) (i : Nat) (v : Channel → Int) : (s.mixAcc i v).regs = s.regs := rfl
@[simp] theorem timerA_mixAcc (s : State) (i : Nat) (v : Channel → Int) : (s.mixAcc i v).timerA = s.timerA := rfl
@[simp] theorem timerB_mixAcc (s : State) (i : Nat) (v : Channel → Int) : (s.mixAcc i v).timerB = s.timerB := rfl
@[simp] theorem timerAPeriod_mixAcc (s : State) (i : Nat) (v : Channel → Int) :
    (s.mixAcc i v).timerAPeriod = s.timerAPeriod := rfl
@[simp] theorem timerBPeriod_mixAcc (s : State) (i : Nat) (v : Channel → Int) :
    (s.mixAcc i v).timerBPeriod = s.timerBPeriod := rfl
@[simp] theorem enable_mixAcc (s : State) (i : Nat) (v : Channel → Int) : (s.mixAcc i v).enable = s.enable := rfl
@[simp] theorem status_mixAcc (s : State) (i : Nat) (v : Channel → Int) : (s.mixAcc i v).status = s.status := rfl
@[simp] theorem irqstate_mixAcc (s : State) (i : Nat) (v : Channel → Int) : (s.mixAcc i v).irqstate = s.irqstate := rfl
@[simp] theorem endStatus_mixAcc (s : State) (i : Nat) (v : Channel → Int) :
    (s.mixAcc i v).endStatus = s.endStatus := rfl
@[simp] theorem busyFlag_mixAcc (s : State) (i : Nat) (v : Channel → Int) : (s.mixAcc i v).busyFlag = s.busyFlag := rfl
@[simp] theorem extAddress_mixAcc (s : State) (i : Nat) (v : Channel → Int) :
    (s.mixAcc i v).extAddress = s.extAddress := rfl
@[simp] theorem extRw_mixAcc (s : State) (i : Nat) (v : Channel → Int) : (s.mixAcc i v).extRw = s.extRw := rfl
@[simp] theorem extReadlatch_mixAcc (s : State) (i : Nat) (v : Channel → Int) :
    (s.mixAcc i v).extReadlatch = s.extReadlatch := rfl
@[simp] theorem mixbuf_mixAcc (s : State) (i : Nat) (v : Channel → Int) : (s.mixAcc i v).mixbuf = s.mixbuf := rfl
@[simp] theorem accbuf_mixAcc (s : State) (i : Nat) (v : Channel → Int) :
    (s.mixAcc i v).accbuf = s.accbuf.modify i fun f => f.combine addSaturated v := rfl
@[simp] theorem rom_mixAcc (s : State) (i : Nat) (v : Channel → Int) : (s.mixAcc i v).rom = s.rom := rfl
@[simp] theorem pos_mixAcc (s : State) (i : Nat) (v : Channel → Int) : (s.mixAcc i v).pos = s.pos := rfl
@[simp] theorem config_mixAcc (s : State) (i : Nat) (v : Channel → Int) : (s.mixAcc i v).config = s.config := rfl
@[simp] theorem input_mixAcc (s : State) (i : Nat) (v : Channel → Int) : (s.mixAcc i v).input = s.input := rfl
@[simp] theorem result_mixAcc (s : State) (i : Nat) (v : Channel → Int) : (s.mixAcc i v).result = s.result := rfl
@[simp] theorem events_mixAcc (s : State) (i : Nat) (v : Channel → Int) : (s.mixAcc i v).events = s.events := rfl

/-! ### `State.at` -/

@[simp] theorem slots_at (s : State) (g : GroupIx) (p : Pair) : (s.at g p).slots = s.slots := rfl
@[simp] theorem groups_at (s : State) (g : GroupIx) (p : Pair) : (s.at g p).groups = s.groups := rfl
@[simp] theorem regs_at (s : State) (g : GroupIx) (p : Pair) : (s.at g p).regs = s.regs := rfl
@[simp] theorem timerA_at (s : State) (g : GroupIx) (p : Pair) : (s.at g p).timerA = s.timerA := rfl
@[simp] theorem timerB_at (s : State) (g : GroupIx) (p : Pair) : (s.at g p).timerB = s.timerB := rfl
@[simp] theorem timerAPeriod_at (s : State) (g : GroupIx) (p : Pair) : (s.at g p).timerAPeriod = s.timerAPeriod := rfl
@[simp] theorem timerBPeriod_at (s : State) (g : GroupIx) (p : Pair) : (s.at g p).timerBPeriod = s.timerBPeriod := rfl
@[simp] theorem enable_at (s : State) (g : GroupIx) (p : Pair) : (s.at g p).enable = s.enable := rfl
@[simp] theorem status_at (s : State) (g : GroupIx) (p : Pair) : (s.at g p).status = s.status := rfl
@[simp] theorem irqstate_at (s : State) (g : GroupIx) (p : Pair) : (s.at g p).irqstate = s.irqstate := rfl
@[simp] theorem endStatus_at (s : State) (g : GroupIx) (p : Pair) : (s.at g p).endStatus = s.endStatus := rfl
@[simp] theorem busyFlag_at (s : State) (g : GroupIx) (p : Pair) : (s.at g p).busyFlag = s.busyFlag := rfl
@[simp] theorem extAddress_at (s : State) (g : GroupIx) (p : Pair) : (s.at g p).extAddress = s.extAddress := rfl
@[simp] theorem extRw_at (s : State) (g : GroupIx) (p : Pair) : (s.at g p).extRw = s.extRw := rfl
@[simp] theorem extReadlatch_at (s : State) (g : GroupIx) (p : Pair) : (s.at g p).extReadlatch = s.extReadlatch := rfl
@[simp] theorem mixbuf_at (s : State) (g : GroupIx) (p : Pair) : (s.at g p).mixbuf = s.mixbuf := rfl
@[simp] theorem accbuf_at (s : State) (g : GroupIx) (p : Pair) : (s.at g p).accbuf = s.accbuf := rfl
@[simp] theorem rom_at (s : State) (g : GroupIx) (p : Pair) : (s.at g p).rom = s.rom := rfl
@[simp] theorem pos_at (s : State) (g : GroupIx) (p : Pair) : (s.at g p).pos = ⟨g, p⟩ := rfl
@[simp] theorem config_at (s : State) (g : GroupIx) (p : Pair) : (s.at g p).config = s.config := rfl
@[simp] theorem input_at (s : State) (g : GroupIx) (p : Pair) : (s.at g p).input = s.input := rfl
@[simp] theorem result_at (s : State) (g : GroupIx) (p : Pair) : (s.at g p).result = s.result := rfl
@[simp] theorem events_at (s : State) (g : GroupIx) (p : Pair) : (s.at g p).events = s.events := rfl

/-! ### `State.openCall` -/

@[simp] theorem slots_openCall (s : State) (n : Nat) : (s.openCall n).slots = s.slots := rfl
@[simp] theorem groups_openCall (s : State) (n : Nat) : (s.openCall n).groups = s.groups := rfl
@[simp] theorem regs_openCall (s : State) (n : Nat) : (s.openCall n).regs = s.regs := rfl
@[simp] theorem timerA_openCall (s : State) (n : Nat) : (s.openCall n).timerA = s.timerA := rfl
@[simp] theorem timerB_openCall (s : State) (n : Nat) : (s.openCall n).timerB = s.timerB := rfl
@[simp] theorem timerAPeriod_openCall (s : State) (n : Nat) : (s.openCall n).timerAPeriod = s.timerAPeriod := rfl
@[simp] theorem timerBPeriod_openCall (s : State) (n : Nat) : (s.openCall n).timerBPeriod = s.timerBPeriod := rfl
@[simp] theorem enable_openCall (s : State) (n : Nat) : (s.openCall n).enable = s.enable := rfl
@[simp] theorem status_openCall (s : State) (n : Nat) : (s.openCall n).status = s.status := rfl
@[simp] theorem irqstate_openCall (s : State) (n : Nat) : (s.openCall n).irqstate = s.irqstate := rfl
@[simp] theorem endStatus_openCall (s : State) (n : Nat) : (s.openCall n).endStatus = s.endStatus := rfl
@[simp] theorem busyFlag_openCall (s : State) (n : Nat) : (s.openCall n).busyFlag = s.busyFlag := rfl
@[simp] theorem extAddress_openCall (s : State) (n : Nat) : (s.openCall n).extAddress = s.extAddress := rfl
@[simp] theorem extRw_openCall (s : State) (n : Nat) : (s.openCall n).extRw = s.extRw := rfl
@[simp] theorem extReadlatch_openCall (s : State) (n : Nat) : (s.openCall n).extReadlatch = s.extReadlatch := rfl
@[simp] theorem mixbuf_openCall (s : State) (n : Nat) : (s.openCall n).mixbuf = List.replicate n Frame.zero := rfl
@[simp] theorem accbuf_openCall (s : State) (n : Nat) : (s.openCall n).accbuf = List.replicate n Frame.zero := rfl
@[simp] theorem rom_openCall (s : State) (n : Nat) : (s.openCall n).rom = s.rom := rfl
@[simp] theorem pos_openCall (s : State) (n : Nat) : (s.openCall n).pos = s.pos := rfl
@[simp] theorem config_openCall (s : State) (n : Nat) : (s.openCall n).config = s.config := rfl
@[simp] theorem input_openCall (s : State) (n : Nat) : (s.openCall n).input = s.input := rfl
@[simp] theorem result_openCall (s : State) (n : Nat) : (s.openCall n).result = s.result := rfl
@[simp] theorem events_openCall (s : State) (n : Nat) : (s.openCall n).events = s.events := rfl

/-! ### `State.noteIrq` -/

@[simp] theorem slots_noteIrq (s : State) (b : Bool) : (s.noteIrq b).slots = s.slots := by
  unfold State.noteIrq; split <;> rfl
@[simp] theorem groups_noteIrq (s : State) (b : Bool) : (s.noteIrq b).groups = s.groups := by
  unfold State.noteIrq; split <;> rfl
@[simp] theorem regs_noteIrq (s : State) (b : Bool) : (s.noteIrq b).regs = s.regs := by
  unfold State.noteIrq; split <;> rfl
@[simp] theorem timerA_noteIrq (s : State) (b : Bool) : (s.noteIrq b).timerA = s.timerA := by
  unfold State.noteIrq; split <;> rfl
@[simp] theorem timerB_noteIrq (s : State) (b : Bool) : (s.noteIrq b).timerB = s.timerB := by
  unfold State.noteIrq; split <;> rfl
@[simp] theorem timerAPeriod_noteIrq (s : State) (b : Bool) : (s.noteIrq b).timerAPeriod = s.timerAPeriod := by
  unfold State.noteIrq; split <;> rfl
@[simp] theorem timerBPeriod_noteIrq (s : State) (b : Bool) : (s.noteIrq b).timerBPeriod = s.timerBPeriod := by
  unfold State.noteIrq; split <;> rfl
@[simp] theorem enable_noteIrq (s : State) (b : Bool) : (s.noteIrq b).enable = s.enable := by
  unfold State.noteIrq; split <;> rfl
@[simp] theorem status_noteIrq (s : State) (b : Bool) : (s.noteIrq b).status = s.status := by
  unfold State.noteIrq; split <;> rfl
@[simp] theorem irqstate_noteIrq (s : State) (b : Bool) : (s.noteIrq b).irqstate = s.irqstate := by
  unfold State.noteIrq; split <;> rfl
@[simp] theorem endStatus_noteIrq (s : State) (b : Bool) : (s.noteIrq b).endStatus = s.endStatus := by
  unfold State.noteIrq; split <;> rfl
@[simp] theorem busyFlag_noteIrq (s : State) (b : Bool) : (s.noteIrq b).busyFlag = s.busyFlag := by
  unfold State.noteIrq; split <;> rfl
@[simp] theorem extAddress_noteIrq (s : State) (b : Bool) : (s.noteIrq b).extAddress = s.extAddress := by
  unfold State.noteIrq; split <;> rfl
@[simp] theorem extRw_noteIrq (s : State) (b : Bool) : (s.noteIrq b).extRw = s.extRw := by
  unfold State.noteIrq; split <;> rfl
@[simp] theorem extReadlatch_noteIrq (s : State) (b : Bool) : (s.noteIrq b).extReadlatch = s.extReadlatch := by
  unfold State.noteIrq; split <;> rfl
@[simp] theorem mixbuf_noteIrq (s : State) (b : Bool) : (s.noteIrq b).mixbuf = s.mixbuf := by
  unfold State.noteIrq; split <;> rfl
@[simp] theorem accbuf_noteIrq (s : State) (b : Bool) : (s.noteIrq b).accbuf = s.accbuf := by
  unfold State.noteIrq; split <;> rfl
@[simp] theorem rom_noteIrq (s : State) (b : Bool) : (s.noteIrq b).rom = s.rom := by
  unfold State.noteIrq; split <;> rfl
@[simp] theorem pos_noteIrq (s : State) (b : Bool) : (s.noteIrq b).pos = s.pos := by
  unfold State.noteIrq; split <;> rfl
@[simp] theorem config_noteIrq (s : State) (b : Bool) : (s.noteIrq b).config = s.config := by
  unfold State.noteIrq; split <;> rfl
@[simp] theorem input_noteIrq (s : State) (b : Bool) : (s.noteIrq b).input = s.input := by
  unfold State.noteIrq; split <;> rfl
@[simp] theorem result_noteIrq (s : State) (b : Bool) : (s.noteIrq b).result = s.result := by
  unfold State.noteIrq; split <;> rfl

/-! ### `State.setEndStatus` -/

@[simp] theorem slots_setEndStatus (s : State) (i : SlotIx) (b : Bool) : (s.setEndStatus i b).slots = s.slots := by
  unfold State.setEndStatus; split <;> rfl
@[simp] theorem groups_setEndStatus (s : State) (i : SlotIx) (b : Bool) : (s.setEndStatus i b).groups = s.groups := by
  unfold State.setEndStatus; split <;> rfl
@[simp] theorem regs_setEndStatus (s : State) (i : SlotIx) (b : Bool) : (s.setEndStatus i b).regs = s.regs := by
  unfold State.setEndStatus; split <;> rfl
@[simp] theorem timerA_setEndStatus (s : State) (i : SlotIx) (b : Bool) : (s.setEndStatus i b).timerA = s.timerA := by
  unfold State.setEndStatus; split <;> rfl
@[simp] theorem timerB_setEndStatus (s : State) (i : SlotIx) (b : Bool) : (s.setEndStatus i b).timerB = s.timerB := by
  unfold State.setEndStatus; split <;> rfl
@[simp] theorem timerAPeriod_setEndStatus (s : State) (i : SlotIx) (b : Bool) : (s.setEndStatus i b).timerAPeriod = s.timerAPeriod := by
  unfold State.setEndStatus; split <;> rfl
@[simp] theorem timerBPeriod_setEndStatus (s : State) (i : SlotIx) (b : Bool) : (s.setEndStatus i b).timerBPeriod = s.timerBPeriod := by
  unfold State.setEndStatus; split <;> rfl
@[simp] theorem enable_setEndStatus (s : State) (i : SlotIx) (b : Bool) : (s.setEndStatus i b).enable = s.enable := by
  unfold State.setEndStatus; split <;> rfl
@[simp] theorem status_setEndStatus (s : State) (i : SlotIx) (b : Bool) : (s.setEndStatus i b).status = s.status := by
  unfold State.setEndStatus; split <;> rfl
@[simp] theorem irqstate_setEndStatus (s : State) (i : SlotIx) (b : Bool) : (s.setEndStatus i b).irqstate = s.irqstate := by
  unfold State.setEndStatus; split <;> rfl
@[simp] theorem busyFlag_setEndStatus (s : State) (i : SlotIx) (b : Bool) : (s.setEndStatus i b).busyFlag = s.busyFlag := by
  unfold State.setEndStatus; split <;> rfl
@[simp] theorem extAddress_setEndStatus (s : State) (i : SlotIx) (b : Bool) : (s.setEndStatus i b).extAddress = s.extAddress := by
  unfold State.setEndStatus; split <;> rfl
@[simp] theorem extRw_setEndStatus (s : State) (i : SlotIx) (b : Bool) : (s.setEndStatus i b).extRw = s.extRw := by
  unfold State.setEndStatus; split <;> rfl
@[simp] theorem extReadlatch_setEndStatus (s : State) (i : SlotIx) (b : Bool) : (s.setEndStatus i b).extReadlatch = s.extReadlatch := by
  unfold State.setEndStatus; split <;> rfl
@[simp] theorem mixbuf_setEndStatus (s : State) (i : SlotIx) (b : Bool) : (s.setEndStatus i b).mixbuf = s.mixbuf := by
  unfold State.setEndStatus; split <;> rfl
@[simp] theorem accbuf_setEndStatus (s : State) (i : SlotIx) (b : Bool) : (s.setEndStatus i b).accbuf = s.accbuf := by
  unfold State.setEndStatus; split <;> rfl
@[simp] theorem rom_setEndStatus (s : State) (i : SlotIx) (b : Bool) : (s.setEndStatus i b).rom = s.rom := by
  unfold State.setEndStatus; split <;> rfl
@[simp] theorem pos_setEndStatus (s : State) (i : SlotIx) (b : Bool) : (s.setEndStatus i b).pos = s.pos := by
  unfold State.setEndStatus; split <;> rfl
@[simp] theorem config_setEndStatus (s : State) (i : SlotIx) (b : Bool) : (s.setEndStatus i b).config = s.config := by
  unfold State.setEndStatus; split <;> rfl
@[simp] theorem input_setEndStatus (s : State) (i : SlotIx) (b : Bool) : (s.setEndStatus i b).input = s.input := by
  unfold State.setEndStatus; split <;> rfl
@[simp] theorem result_setEndStatus (s : State) (i : SlotIx) (b : Bool) : (s.setEndStatus i b).result = s.result := by
  unfold State.setEndStatus; split <;> rfl
@[simp] theorem events_setEndStatus (s : State) (i : SlotIx) (b : Bool) : (s.setEndStatus i b).events = s.events := by
  unfold State.setEndStatus; split <;> rfl

/-! ### `State.loopEvent` -/

@[simp] theorem slots_loopEvent (s : State) (i : SlotIx) (b : Bool) : (s.loopEvent i b).slots = s.slots := by
  unfold State.loopEvent; split <;> simp
@[simp] theorem groups_loopEvent (s : State) (i : SlotIx) (b : Bool) : (s.loopEvent i b).groups = s.groups := by
  unfold State.loopEvent; split <;> simp
@[simp] theorem regs_loopEvent (s : State) (i : SlotIx) (b : Bool) : (s.loopEvent i b).regs = s.regs := by
  unfold State.loopEvent; split <;> simp
@[simp] theorem timerA_loopEvent (s : State) (i : SlotIx) (b : Bool) : (s.loopEvent i b).timerA = s.timerA := by
  unfold State.loopEvent; split <;> simp
@[simp] theorem timerB_loopEvent (s : State) (i : SlotIx) (b : Bool) : (s.loopEvent i b).timerB = s.timerB := by
  unfold State.loopEvent; split <;> simp
@[simp] theorem timerAPeriod_loopEvent (s : State) (i : SlotIx) (b : Bool) : (s.loopEvent i b).timerAPeriod = s.timerAPeriod := by
  unfold State.loopEvent; split <;> simp
@[simp] theorem timerBPeriod_loopEvent (s : State) (i : SlotIx) (b : Bool) : (s.loopEvent i b).timerBPeriod = s.timerBPeriod := by
  unfold State.loopEvent; split <;> simp
@[simp] theorem enable_loopEvent (s : State) (i : SlotIx) (b : Bool) : (s.loopEvent i b).enable = s.enable := by
  unfold State.loopEvent; split <;> simp
@[simp] theorem status_loopEvent (s : State) (i : SlotIx) (b : Bool) : (s.loopEvent i b).status = s.status := by
  unfold State.loopEvent; split <;> simp
@[simp] theorem irqstate_loopEvent (s : State) (i : SlotIx) (b : Bool) : (s.loopEvent i b).irqstate = s.irqstate := by
  unfold State.loopEvent; split <;> simp
@[simp] theorem busyFlag_loopEvent (s : State) (i : SlotIx) (b : Bool) : (s.loopEvent i b).busyFlag = s.busyFlag := by
  unfold State.loopEvent; split <;> simp
@[simp] theorem extAddress_loopEvent (s : State) (i : SlotIx) (b : Bool) : (s.loopEvent i b).extAddress = s.extAddress := by
  unfold State.loopEvent; split <;> simp
@[simp] theorem extRw_loopEvent (s : State) (i : SlotIx) (b : Bool) : (s.loopEvent i b).extRw = s.extRw := by
  unfold State.loopEvent; split <;> simp
@[simp] theorem extReadlatch_loopEvent (s : State) (i : SlotIx) (b : Bool) : (s.loopEvent i b).extReadlatch = s.extReadlatch := by
  unfold State.loopEvent; split <;> simp
@[simp] theorem mixbuf_loopEvent (s : State) (i : SlotIx) (b : Bool) : (s.loopEvent i b).mixbuf = s.mixbuf := by
  unfold State.loopEvent; split <;> simp
@[simp] theorem accbuf_loopEvent (s : State) (i : SlotIx) (b : Bool) : (s.loopEvent i b).accbuf = s.accbuf := by
  unfold State.loopEvent; split <;> simp
@[simp] theorem rom_loopEvent (s : State) (i : SlotIx) (b : Bool) : (s.loopEvent i b).rom = s.rom := by
  unfold State.loopEvent; split <;> simp
@[simp] theorem pos_loopEvent (s : State) (i : SlotIx) (b : Bool) : (s.loopEvent i b).pos = s.pos := by
  unfold State.loopEvent; split <;> simp
@[simp] theorem config_loopEvent (s : State) (i : SlotIx) (b : Bool) : (s.loopEvent i b).config = s.config := by
  unfold State.loopEvent; split <;> simp
@[simp] theorem input_loopEvent (s : State) (i : SlotIx) (b : Bool) : (s.loopEvent i b).input = s.input := by
  unfold State.loopEvent; split <;> simp
@[simp] theorem result_loopEvent (s : State) (i : SlotIx) (b : Bool) : (s.loopEvent i b).result = s.result := by
  unfold State.loopEvent; split <;> simp
@[simp] theorem events_loopEvent (s : State) (i : SlotIx) (b : Bool) : (s.loopEvent i b).events = s.events := by
  unfold State.loopEvent; split <;> simp

/-! ### `State.timerReset` -/

@[simp] theorem slots_timerReset (s : State) (k : Nat) (d : Byte) : (s.timerReset k d).slots = s.slots := by
  unfold State.timerReset; split <;> rfl
@[simp] theorem groups_timerReset (s : State) (k : Nat) (d : Byte) : (s.timerReset k d).groups = s.groups := by
  unfold State.timerReset; split <;> rfl
@[simp] theorem regs_timerReset (s : State) (k : Nat) (d : Byte) : (s.timerReset k d).regs = s.regs := by
  unfold State.timerReset; split <;> rfl
@[simp] theorem timerA_timerReset (s : State) (k : Nat) (d : Byte) : (s.timerReset k d).timerA = s.timerA := by
  unfold State.timerReset; split <;> rfl
@[simp] theorem timerB_timerReset (s : State) (k : Nat) (d : Byte) : (s.timerReset k d).timerB = s.timerB := by
  unfold State.timerReset; split <;> rfl
@[simp] theorem timerAPeriod_timerReset (s : State) (k : Nat) (d : Byte) : (s.timerReset k d).timerAPeriod = s.timerAPeriod := by
  unfold State.timerReset; split <;> rfl
@[simp] theorem timerBPeriod_timerReset (s : State) (k : Nat) (d : Byte) : (s.timerReset k d).timerBPeriod = s.timerBPeriod := by
  unfold State.timerReset; split <;> rfl
@[simp] theorem enable_timerReset (s : State) (k : Nat) (d : Byte) : (s.timerReset k d).enable = s.enable := by
  unfold State.timerReset; split <;> rfl
@[simp] theorem endStatus_timerReset (s : State) (k : Nat) (d : Byte) : (s.timerReset k d).endStatus = s.endStatus := by
  unfold State.timerReset; split <;> rfl
@[simp] theorem busyFlag_timerReset (s : State) (k : Nat) (d : Byte) : (s.timerReset k d).busyFlag = s.busyFlag := by
  unfold State.timerReset; split <;> rfl
@[simp] theorem extAddress_timerReset (s : State) (k : Nat) (d : Byte) : (s.timerReset k d).extAddress = s.extAddress := by
  unfold State.timerReset; split <;> rfl
@[simp] theorem extRw_timerReset (s : State) (k : Nat) (d : Byte) : (s.timerReset k d).extRw = s.extRw := by
  unfold State.timerReset; split <;> rfl
@[simp] theorem extReadlatch_timerReset (s : State) (k : Nat) (d : Byte) : (s.timerReset k d).extReadlatch = s.extReadlatch := by
  unfold State.timerReset; split <;> rfl
@[simp] theorem mixbuf_timerReset (s : State) (k : Nat) (d : Byte) : (s.timerReset k d).mixbuf = s.mixbuf := by
  unfold State.timerReset; split <;> rfl
@[simp] theorem accbuf_timerReset (s : State) (k : Nat) (d : Byte) : (s.timerReset k d).accbuf = s.accbuf := by
  unfold State.timerReset; split <;> rfl
@[simp] theorem rom_timerReset (s : State) (k : Nat) (d : Byte) : (s.timerReset k d).rom = s.rom := by
  unfold State.timerReset; split <;> rfl
@[simp] theorem pos_timerReset (s : State) (k : Nat) (d : Byte) : (s.timerReset k d).pos = s.pos := by
  unfold State.timerReset; split <;> rfl
@[simp] theorem config_timerReset (s : State) (k : Nat) (d : Byte) : (s.timerReset k d).config = s.config := by
  unfold State.timerReset; split <;> rfl
@[simp] theorem input_timerReset (s : State) (k : Nat) (d : Byte) : (s.timerReset k d).input = s.input := by
  unfold State.timerReset; split <;> rfl
@[simp] theorem result_timerReset (s : State) (k : Nat) (d : Byte) : (s.timerReset k d).result = s.result := by
  unfold State.timerReset; split <;> rfl
@[simp] theorem events_timerReset (s : State) (k : Nat) (d : Byte) : (s.timerReset k d).events = s.events := by
  unfold State.timerReset; split <;> rfl

end Sys2Proof.Machine
end

