-- ==== Sys2Proof/Laws/Flags.lean ====
section
/-! SUPPORT. What the shared operations over flags, partial registers and the external cursor do: one law for each. -/

namespace Sys2Proof.Machine

open Sys2Proof

/-- One bit of a vector after it is set to a value. -/
theorem getLsbD_withBit {w : Nat} (v : BitVec w) (i k : Nat) (b : Bool) :
    (withBit v i b).getLsbD k = if k = i ∧ k < w then b else v.getLsbD k := by
  have hb : (BitVec.ofNat w (2 ^ i)).getLsbD k = (decide (k < w) && decide (i = k)) := by
    rw [BitVec.getLsbD_ofNat, Nat.testBit_two_pow]
  unfold withBit
  generalize BitVec.ofNat w (2 ^ i) = m at hb
  have hv : ¬k < w → v.getLsbD k = false := fun h => BitVec.getLsbD_of_ge _ _ (not_lt.mp h)
  by_cases hk : k < w <;> by_cases h : i = k <;> cases b <;>
    simp only [BitVec.getLsbD_and, BitVec.getLsbD_or, BitVec.getLsbD_not, hb, hk, h, hv, if_true, if_false, decide_true,
      decide_false, Bool.false_eq_true, Bool.and_true, Bool.and_false, Bool.or_true,
      Bool.or_false, Bool.not_true, Bool.not_false, eq_comm (a := k), and_true, and_false, not_false_eq_true]

/-- The bits of the status byte of port 0 (R150). -/
theorem statusByte0_bits (s : State) :
    s.statusByte0.getLsbD 7 = s.busyFlag ∧ (∀ k, k < 4 → s.statusByte0.getLsbD (3 + k) = s.endStatus.getLsbD k) ∧
      s.statusByte0.getLsbD 2 = false ∧ s.statusByte0.getLsbD 1 = s.status.getLsbD 1 ∧
      s.statusByte0.getLsbD 0 = s.status.getLsbD 0 := by
  refine ⟨?_, fun k hk => ?_, ?_, ?_, ?_⟩ <;> unfold State.statusByte0
  · simp only [BitVec.getLsbD_append]
    simp
  · rw [BitVec.getLsbD_append, if_neg (by omega), BitVec.getLsbD_append, if_neg (by omega), BitVec.getLsbD_append,
      if_pos (by omega), BitVec.getLsbD_extractLsb']
    simp [hk, show 3 + k - 2 - 1 = k by omega]
  all_goals simp only [BitVec.getLsbD_append]; simp

/-- The bits of the status byte of port 1 (R151). -/
theorem statusByte1_bits (s : State) (k : Nat) (hk : k < 8) :
    s.statusByte1.getLsbD k = s.endStatus.getLsbD (4 + k) := by
  unfold State.statusByte1
  simp [hk]

/-- The three writes of part of a 23-bit register, as numbers (R85). -/
theorem withPart_toNat (x : Addr) (d : Byte) :
    (withLow x d).toNat = x.toNat / 256 * 256 + d.toNat ∧
      (withMid x d).toNat = x.toNat / 65536 * 65536 + d.toNat * 256 + x.toNat % 256 ∧
      (withHigh x d).toNat = d.toNat % 128 * 65536 + x.toNat % 65536 := by
  have hx := x.isLt
  have hd := d.isLt
  have h8 : x.toNat % 256 < 2 ^ 8 := by omega
  have h16 : x.toNat % 65536 < 2 ^ 16 := by omega
  refine ⟨?_, ?_, ?_⟩
  · simp only [withLow, BitVec.toNat_append, BitVec.extractLsb'_toNat]
    rw [← Nat.shiftLeft_add_eq_or_of_lt hd]
    simp only [Nat.shiftLeft_eq, Nat.shiftRight_eq_div_pow]
    omega
  · simp only [withMid, BitVec.toNat_append, BitVec.extractLsb'_toNat, Nat.shiftRight_zero]
    rw [← Nat.shiftLeft_add_eq_or_of_lt (by omega), ← Nat.shiftLeft_add_eq_or_of_lt hd]
    simp only [Nat.shiftLeft_eq, Nat.shiftRight_eq_div_pow]
    omega
  · simp only [withHigh, BitVec.toNat_append, BitVec.extractLsb'_toNat, Nat.shiftRight_zero]
    rw [← Nat.shiftLeft_add_eq_or_of_lt (by omega)]
    simp only [Nat.shiftLeft_eq]

/-- The two writes of part of `timerA`, as numbers (R214, R218). -/
theorem withTimer_toNat (x : BitVec 10) (d : Byte) :
    (withTimerHigh x d).toNat = d.toNat * 4 + x.toNat % 4 ∧
      (withTimerLow x d).toNat = x.toNat / 4 * 4 + d.toNat % 4 := by
  have hx := x.isLt
  have hd := d.isLt
  constructor
  · simp only [withTimerHigh, BitVec.toNat_append, BitVec.extractLsb'_toNat, Nat.shiftRight_zero]
    rw [← Nat.shiftLeft_add_eq_or_of_lt (by omega)]
    simp only [Nat.shiftLeft_eq]
  · simp only [withTimerLow, BitVec.toNat_append, BitVec.extractLsb'_toNat, Nat.shiftRight_zero]
    rw [← Nat.shiftLeft_add_eq_or_of_lt (by omega)]
    simp only [Nat.shiftLeft_eq, Nat.shiftRight_eq_div_pow]
    omega

/-- A note of the IRQ level appends one event when the level changed, and does nothing else (R505). -/
theorem noteIrq_events (s : State) (b : Bool) :
    s.noteIrq b = { s with events := if s.irq = b then s.events else s.events ++ [.irqChanged s.irq] } := by
  unfold State.noteIrq State.emit
  split <;> rfl

/-- A timer's reset bit (R213): only the two flag fields may change, and of them the one bit. -/
theorem timerReset_spec (s : State) (k : Nat) (d : Byte) :
    { s.timerReset k d with status := s.status, irqstate := s.irqstate } = s ∧
      (∀ j, j < 2 → (s.timerReset k d).status.getLsbD j = (s.status.getLsbD j && !(j == k && d.getLsbD (4 + k)))) ∧
      ∀ j, j < 2 → (s.timerReset k d).irqstate.getLsbD j = (s.irqstate.getLsbD j && !(j == k && d.getLsbD (4 + k))) := by
  unfold State.timerReset
  split
  · rename_i h
    refine ⟨rfl, fun j hj => ?_, fun j hj => ?_⟩ <;> dsimp only <;> rw [getLsbD_withBit, h] <;>
      by_cases hjk : j = k <;> simp [hjk, hj] <;> omega
  · rename_i h
    simp only [Bool.not_eq_true] at h
    exact ⟨rfl, fun j _ => by simp [h], fun j _ => by simp [h]⟩

/-- A timer tick before its event (R503). -/
theorem timerTick_spec (s : State) (k : Nat) :
    { s.timerTick k with status := s.status, irqstate := s.irqstate, events := s.events } = s ∧
      (∀ j, j < 2 → (s.timerTick k).status.getLsbD j = (s.status.getLsbD j || j == k)) ∧
      (∀ j, j < 2 →
        (s.timerTick k).irqstate.getLsbD j = (s.irqstate.getLsbD j || (j == k && s.enable.getLsbD (2 + k)))) := by
  unfold State.timerTick
  rw [noteIrq_events]
  refine ⟨rfl, fun j hj => ?_, fun j hj => ?_⟩
  · show (withBit s.status k true).getLsbD j = _
    rw [getLsbD_withBit]
    by_cases hjk : j = k <;> simp [hjk, hj]
    omega
  · show (if s.enable.getLsbD (2 + k) then withBit s.irqstate k true else s.irqstate).getLsbD j = _
    split
    · rename_i h
      rw [getLsbD_withBit, h]
      by_cases hjk : j = k <;> simp [hjk, hj]
      omega
    · rename_i h
      simp only [Bool.not_eq_true] at h
      simp [h]

/-- The cursor advances modulo 2^23 and the latch follows it (R152, R216, R217). -/
theorem advanceExt_spec (s : State) :
    { s.advanceExt with extAddress := s.extAddress, extReadlatch := s.extReadlatch } = s ∧
      s.advanceExt.extAddress.toNat = (s.extAddress.toNat + 1) % 8388608 ∧
      s.advanceExt.extReadlatch = memRead s.rom s.advanceExt.extAddress.toNat :=
  ⟨rfl, BitVec.toNat_add _ _, rfl⟩

end Sys2Proof.Machine
end

