-- ==== Sys2Proof/Laws/Memory.lean ====
section
/-! SUPPORT. The PCM memory: every operation keeps the canonical form, and the read-back laws. -/

namespace Sys2Proof.Machine

open Sys2Proof

theorem romFill_eq : romFill = 0xFF#8 := rfl

/-- A lower start makes the canonical form weaker. -/
theorem cellsWf_mono {size lo lo' : Nat} (h : lo' ≤ lo) : ∀ {cs : List Host.Cell},
    cellsWf size lo cs = true → cellsWf size lo' cs = true
  | [], _ => rfl
  | (a, b) :: rest, hw => by
    simp only [cellsWf, Bool.and_eq_true, decide_eq_true_eq] at hw ⊢
    exact ⟨⟨⟨by omega, hw.1.1.2⟩, hw.1.2⟩, hw.2⟩

/-- An address below the start of canonical cells reads as the fill byte. -/
theorem cellAt_below {size lo a : Nat} (h : a < lo) : ∀ {cs : List Host.Cell},
    cellsWf size lo cs = true → cellAt cs a = romFill
  | [], _ => rfl
  | (a', b') :: rest, hw => by
    simp only [cellsWf, Bool.and_eq_true, decide_eq_true_eq] at hw
    rw [cellAt, if_neg (by omega)]
    exact cellAt_below (by omega) hw.2

/-- A write keeps the canonical form. -/
theorem cellsWf_cellPut {size a : Nat} {b : Byte} (ha : a < size) : ∀ {lo : Nat} {cs : List Host.Cell}, lo ≤ a →
    cellsWf size lo cs = true → cellsWf size lo (cellPut cs a b) = true
  | lo, [], hlo, _ => by
    unfold cellPut
    split
    · rfl
    · simp_all [cellsWf]
  | lo, (a', b') :: rest, hlo, hw => by
    have hw' := hw
    simp only [cellsWf, Bool.and_eq_true, decide_eq_true_eq, bne_iff_ne, ne_eq] at hw
    obtain ⟨⟨⟨h1, h2⟩, h3⟩, h4⟩ := hw
    rw [cellPut]
    split
    · split
      · exact hw'
      · simp only [cellsWf, Bool.and_eq_true, decide_eq_true_eq, bne_iff_ne, ne_eq]
        exact ⟨⟨⟨hlo, ha⟩, ‹_›⟩, ⟨⟨by omega, h2⟩, h3⟩, h4⟩
    · split
      · split
        · exact cellsWf_mono (by omega) h4
        · simp only [cellsWf, Bool.and_eq_true, decide_eq_true_eq, bne_iff_ne, ne_eq]
          exact ⟨⟨⟨hlo, ha⟩, ‹_›⟩, by simp_all⟩
      · simp only [cellsWf, Bool.and_eq_true, decide_eq_true_eq, bne_iff_ne, ne_eq]
        exact ⟨⟨⟨h1, h2⟩, h3⟩, cellsWf_cellPut ha (by omega) h4⟩

/-- A read after a write: the byte written at its address, the old byte elsewhere. -/
theorem cellAt_cellPut {size a x : Nat} {b : Byte} : ∀ {lo : Nat} {cs : List Host.Cell},
    cellsWf size lo cs = true → cellAt (cellPut cs a b) x = if x = a then b else cellAt cs x
  | lo, [], _ => by
    unfold cellPut
    by_cases hb : b = romFill
    · simp [hb, cellAt]
    · simp [hb, cellAt]
  | lo, (a', b') :: rest, hw => by
    simp only [cellsWf, Bool.and_eq_true, decide_eq_true_eq] at hw
    obtain ⟨⟨⟨h1, h2⟩, h3⟩, h4⟩ := hw
    have hbelow : ∀ y, y ≤ a' → cellAt rest y = romFill := fun y hy => cellAt_below (by omega) h4
    rw [cellPut]
    by_cases hlt : a < a'
    · rw [if_pos hlt]
      by_cases hb : b = romFill
      · rw [if_pos hb]
        by_cases hx : x = a
        · subst hx
          rw [if_pos rfl, cellAt, if_neg (by omega), hbelow x (by omega), hb]
        · rw [if_neg hx]
      · rw [if_neg hb]
        show (if x = a then b else cellAt ((a', b') :: rest) x) = _
        rfl
    · rw [if_neg hlt]
      by_cases heq : a = a'
      · subst heq
        rw [if_pos rfl]
        by_cases hb : b = romFill
        · rw [if_pos hb, cellAt]
          by_cases hx : x = a
          · simp [hx, hbelow a (le_refl _), hb]
          · simp [hx]
        · rw [if_neg hb, cellAt, cellAt]
          by_cases hx : x = a <;> simp [hx]
      · rw [if_neg heq, cellAt, cellAt, cellAt_cellPut h4]
        by_cases hx : x = a
        · subst hx
          simp [heq]
        · simp [hx]

theorem Rom.wf_iff (m : Rom) : m.wf = true ↔ m.size ≤ romLimit ∧ cellsWf m.size 0 m.cells = true := by
  simp [Rom.wf]

theorem wf_empty : Rom.empty.wf = true := by decide

/-- The memory after reset is in canonical form. -/
theorem wf_reset : State.reset.rom.wf = true := wf_empty

@[simp] theorem size_write (m : Rom) (a : Nat) (b : Byte) : (m.write a b).size = m.size := by
  unfold Rom.write; split <;> rfl

@[simp] theorem size_writeBytes (m : Rom) (o : Nat) (bs : List Byte) : (m.writeBytes o bs).size = m.size := by
  induction bs generalizing m o with
  | nil => rfl
  | cons b bs ih => simp [Rom.writeBytes, ih]

theorem size_alloc (m : Rom) (n : Nat) : (m.alloc n).size = min n romLimit := rfl

theorem wf_write {m : Rom} (a : Nat) (b : Byte) (h : m.wf = true) : (m.write a b).wf = true := by
  unfold Rom.write
  split
  · rename_i ha
    rw [Rom.wf_iff] at h ⊢
    exact ⟨h.1, cellsWf_cellPut ha (Nat.zero_le _) h.2⟩
  · exact h

/-- `write_rom` keeps the canonical form. -/
theorem wf_writeBytes {m : Rom} (o : Nat) (bs : List Byte) (h : m.wf = true) : (m.writeBytes o bs).wf = true := by
  induction bs generalizing m o with
  | nil => exact h
  | cons b bs ih => exact ih (o + 1) (wf_write o b h)

theorem cellsWf_filter {size size' n : Nat} (hn : n ≤ size') : ∀ {lo : Nat} {cs : List Host.Cell},
    cellsWf size lo cs = true → cellsWf size' lo (cs.filter fun c => decide (c.1 < n)) = true
  | _, [], _ => rfl
  | lo, (a, b) :: rest, hw => by
    simp only [cellsWf, Bool.and_eq_true, decide_eq_true_eq] at hw
    by_cases ha : a < n
    · have := cellsWf_filter hn hw.2
      simp only [List.filter_cons, ha, decide_true, if_true, cellsWf, Bool.and_eq_true, decide_eq_true_eq]
      exact ⟨⟨⟨hw.1.1.1, by omega⟩, hw.1.2⟩, this⟩
    · have := cellsWf_filter hn hw.2
      simp only [List.filter_cons, ha, decide_false, Bool.false_eq_true, if_false]
      exact cellsWf_mono (by omega) this

/-- `alloc_rom` keeps the canonical form. -/
theorem wf_alloc {m : Rom} (n : Nat) (h : m.wf = true) : (m.alloc n).wf = true := by
  rw [Rom.wf_iff] at h ⊢
  exact ⟨Nat.min_le_right _ _, cellsWf_filter (Nat.min_le_right _ _) h.2⟩

theorem cellAt_filter (n x : Nat) (cs : List Host.Cell) :
    cellAt (cs.filter fun c => decide (c.1 < n)) x = if x < n then cellAt cs x else romFill := by
  induction cs with
  | nil => simp [cellAt]
  | cons c cs ih =>
    obtain ⟨a, b⟩ := c
    by_cases ha : a < n
    · simp only [List.filter_cons, ha, decide_true, if_true, cellAt, ih]
      by_cases hx : x = a
      · simp [hx, ha]
      · simp [hx]
    · simp only [List.filter_cons, ha, decide_false, Bool.false_eq_true, if_false, cellAt, ih]
      by_cases hx : x < n
      · rw [if_pos hx, if_pos hx, if_neg (by omega)]
      · rw [if_neg hx, if_neg hx]

/-- A byte of the memory after `alloc_rom` (R463). -/
theorem byteAt_alloc (m : Rom) (n x : Nat) :
    (m.alloc n).byteAt x = if x < min m.size (min n romLimit) then m.byteAt x else 0xFF#8 :=
  cellAt_filter _ _ _

/-- A byte of the memory after one byte is written (R464). -/
theorem byteAt_write {m : Rom} (h : m.wf = true) (a x : Nat) (b : Byte) :
    (m.write a b).byteAt x = if x = a ∧ a < m.size then b else m.byteAt x := by
  unfold Rom.write
  split
  · rename_i ha
    simp only [ha, and_true]
    exact cellAt_cellPut ((Rom.wf_iff m).mp h).2
  · rename_i ha
    simp [ha]

/-- A byte of the memory after `write_rom` (R464). -/
theorem byteAt_writeBytes {m : Rom} (h : m.wf = true) (o x : Nat) (bs : List Byte) :
    (m.writeBytes o bs).byteAt x =
      if o ≤ x ∧ x < o + bs.length ∧ x < m.size then bs.getD (x - o) 0#8 else m.byteAt x := by
  induction bs generalizing m o with
  | nil => simp only [Rom.writeBytes, List.length_nil, Nat.add_zero]; rw [if_neg (by omega)]
  | cons b bs ih =>
    rw [Rom.writeBytes, ih (wf_write o b h), byteAt_write h, size_write]
    by_cases hx : x = o
    · subst hx
      rw [if_neg (by omega)]
      by_cases hs : x < m.size
      · rw [if_pos ⟨rfl, hs⟩, if_pos ⟨le_refl _, by simp, hs⟩]; simp
      · rw [if_neg (by simp [hs]), if_neg (by simp [hs])]
    · rw [if_neg (by simp [hx] : ¬(x = o ∧ o < m.size))]
      by_cases hc : o + 1 ≤ x ∧ x < o + 1 + bs.length ∧ x < m.size
      · rw [if_pos hc, if_pos ⟨by omega, by simp; omega, hc.2.2⟩]
        obtain ⟨k, rfl⟩ : ∃ k, x = o + 1 + k := ⟨x - (o + 1), by omega⟩
        have : o + 1 + k - o = k + 1 := by omega
        simp [this]
      · rw [if_neg hc, if_neg (by simp; omega)]

end Sys2Proof.Machine
end

