-- ==== Sys2Proof/Laws/Tables.lean ====
section
/-! SUPPORT. The ranges of the look-up tables, and the inequality that pins the envelope table to its formula. -/

namespace Sys2Proof.Machine

open Sys2Proof

/-- A bound that holds for every entry of a table written in rows holds for every read of it. -/
theorem rowEntry_le (t : List (List Nat)) (m i : Nat) (h : (t.all fun r => r.all fun x => decide (x ≤ m)) = true) :
    rowEntry t i ≤ m := by
  have h' : ∀ r ∈ t, ∀ x ∈ r, x ≤ m := by simpa [List.all_eq_true] using h
  unfold rowEntry
  by_cases h1 : i / 16 < t.length
  · simp only [List.getD_eq_getElem?_getD, List.getElem?_eq_getElem h1, Option.getD_some]
    by_cases h2 : i % 16 < (t[i / 16]).length
    · simpa only [List.getElem?_eq_getElem h2, Option.getD_some] using
        h' _ (List.getElem_mem h1) _ (List.getElem_mem h2)
    · simp [List.getElem?_eq_none (not_lt.mp h2)]
  · simp [List.getElem?_eq_none (not_lt.mp h1)]

theorem evAt_le (i : Nat) : evAt i ≤ 65536 := rowEntry_le evTable 65536 i (by decide +kernel)

theorem tlAt_le (i : Nat) : tlAt i ≤ 65536 := evAt_le (2 * i)

/-- `v ≤ 65536 / 10^(3i/160) < v + 1`, cleared of roots, for every entry of the envelope table (R241). -/
theorem evAt_bracket : ∀ i < 256,
    evAt i ^ 160 * 10 ^ (3 * i) ≤ 65536 ^ 160 ∧ 65536 ^ 160 < (evAt i + 1) ^ 160 * 10 ^ (3 * i) := by
  decide +kernel

theorem halfPeriod_le (q : List (List Nat)) (h : (q.all fun r => r.all fun x => decide (x ≤ 32767)) = true) (i : Nat) :
    halfPeriod q i ≤ 32767 := by
  unfold halfPeriod
  split <;> exact rowEntry_le q 32767 _ h

theorem fullPeriod_natAbs_le (q : List (List Nat)) (h : (q.all fun r => r.all fun x => decide (x ≤ 32767)) = true)
    (i : Nat) : (fullPeriod q i).natAbs ≤ 32767 := by
  unfold fullPeriod
  split
  · rw [Int.natAbs_natCast]
    exact halfPeriod_le q h i
  · rw [Int.natAbs_neg, Int.natAbs_natCast]
    exact halfPeriod_le q h _

/-- Every wave entry is within ±32767 (R308). -/
theorem waveAt_natAbs_le (w : BitVec 3) (i : Nat) : (waveAt w i).natAbs ≤ 32767 := by
  have h0 := fullPeriod_natAbs_le sineQuarter (by decide +kernel)
  have h1 := fullPeriod_natAbs_le sineSquareQuarter (by decide +kernel)
  have habs : ∀ x : Int, ((x.natAbs : Nat) : Int).natAbs = x.natAbs := fun x => Int.natAbs_natCast _
  unfold waveAt
  split
  · exact h0 _
  · exact h1 _
  · rw [habs]; exact h0 _
  · split
    · exact h0 _
    · decide
  · split
    · exact h0 _
    · decide
  · split
    · rw [habs]; exact h0 _
    · decide
  · decide
  · decide

/-- A table parameter whose entries obey a bound, over a default that obeys it, obeys it. -/
theorem entryAt_le (t : Table Nat) (d : Nat → Nat) (m i : Nat) (ht : ∀ p ∈ t, p.2 ≤ m) (hd : d i ≤ m) :
    entryAt t d i ≤ m := by
  unfold entryAt
  cases h : t.lookup i with
  | none => simpa using hd
  | some v =>
    obtain ⟨a, b, rfl, _⟩ := List.lookup_eq_some_iff.mp h
    simpa using ht (i, v) (by simp)

theorem attnAt_le {c : Config} (h : GoodConfig c) (l : BitVec 4) : attnAt c l ≤ 65536 := by
  have : ∀ k : Fin 16, attnDefault k ≤ 65536 := by decide
  unfold attnAt
  split
  · exact le_rfl
  · split
    · decide
    · exact entryAt_le _ _ _ _ h.2.2.1 (this ⟨l.toNat, l.isLt⟩)

theorem alfoAt_le {c : Config} (h : GoodConfig c) (w : BitVec 2) {i : Nat} (hi : i < 256) : alfoAt c w i ≤ 65536 := by
  unfold alfoAt
  split
  · exact Nat.zero_le _
  refine entryAt_le _ _ _ _ h.1 ?_
  show alfoDefault w.toNat i ≤ 65536
  unfold alfoDefault
  split <;> first | omega | (split <;> omega)

theorem alfoGainAt_le {c : Config} (h : GoodConfig c) (a : BitVec 2) (x : Nat) : alfoGainAt c a x ≤ 65536 := by
  unfold alfoGainAt
  split
  · exact le_rfl
  · exact entryAt_le _ _ _ _ h.2.1 (Nat.sub_le _ _)

/-- The default tables obey the constraints (R273, R274, R432). -/
theorem goodConfig_default : GoodConfig Config.default := by
  refine ⟨by simp [Config.default], by simp [Config.default], by simp [Config.default], ?_⟩
  decide

end Sys2Proof.Machine
end

