-- ==== Sys2Proof/Laws/Writes.lean ====
section
/-! SUPPORT. What the shared operations of the register writes can do: the selector tables as formulas, the slots a
mirrored write reaches, an FM write and a PCM write as a whole, the changes over all groups, the IRQ event. -/

namespace Sys2Proof.Machine

open Sys2Proof

/-! ### Selectors and numbering -/

/-- A valid selector names the group `3*n[3:2] + n[1:0]` (R106). -/
theorem fmTab_valid : ∀ n : Nibble, selectorValid n = true → ∃ g, fmTab n = some g ∧ g.val = selectedGroup n := by
  decide

/-- A selector with `n[1:0] = 3` names no group (R106). -/
theorem fmTab_invalid : ∀ n : Nibble, selectorValid n = false → fmTab n = none := by decide

/-- A valid selector names the PCM slot `4 * fm_tab[n]` (R108). -/
theorem pcmTab_valid : ∀ n : Nibble, selectorValid n = true → ∃ i, pcmTab n = some i ∧ i.val = 4 * selectedGroup n := by
  decide

/-- A selector with `n[1:0] = 3` names no PCM slot (R108). -/
theorem pcmTab_invalid : ∀ n : Nibble, selectorValid n = false → pcmTab n = none := by decide

/-- A PCM slot is one of the twelve whose number is a multiple of 4 (R34). -/
theorem pcmTab_mod (n : Nibble) (i : SlotIx) (h : pcmTab n = some i) : i.val % 4 = 0 := by
  revert h i
  revert n
  decide

/-- The port of an FM data write is `2 * bank + 1` (R102). -/
theorem port_fmData : ∀ bank : BitVec 2, (PortRole.fmData bank).port = fmDataPort bank := by decide

theorem bankOf_slotIx (b : Bank) (g : GroupIx) : bankOf (slotIx b g) = b.val := by
  simp only [bankOf, slotIx]; omega

theorem groupOf_slotIx (b : Bank) (g : GroupIx) : groupOf (slotIx b g) = g.val := by
  simp only [groupOf, slotIx]; omega

/-- A slot is the one of its bank and its group (R30). -/
theorem eq_slotIx_iff (i : SlotIx) (b : Bank) (g : GroupIx) :
    i = slotIx b g ↔ bankOf i = b.val ∧ groupOf i = g.val := by
  simp only [Fin.ext_iff, slotIx, bankOf, groupOf]; omega

/-- The mirror targets are the banks that `mirrored` says, each once (R142). -/
theorem mem_mirrorTargets : ∀ (sync : BitVec 2) (bank b : Bank),
    b ∈ mirrorTargets sync bank ↔ mirrored sync.toNat bank.val b.val = true := by decide

theorem nodup_mirrorTargets : ∀ (sync : BitVec 2) (bank : Bank), (mirrorTargets sync bank).Nodup := by decide

/-! ### Writes of slots -/

/-- Slots written one after another, each once: every one is changed from its old contents, and the rest of the state is
untouched. -/
theorem writeTargets_modSlot (f : Slot → Slot) (g : GroupIx) : ∀ (banks : List Bank) (s : State), banks.Nodup →
    { writeTargets (fun i s1 => s1.modSlot i f) g banks s with slots := s.slots } = s ∧
      ∀ i : SlotIx, (writeTargets (fun i s1 => s1.modSlot i f) g banks s).slot i =
        if groupOf i = g.val ∧ ∃ b ∈ banks, bankOf i = b.val then f (s.slot i) else s.slot i
  | [], s, _ => ⟨rfl, fun i => by simp [writeTargets]⟩
  | b :: bs, s, hn => by
    obtain ⟨hb, hbs⟩ := List.nodup_cons.mp hn
    obtain ⟨h1, h2⟩ := writeTargets_modSlot f g bs (s.modSlot (slotIx b g) f) hbs
    refine ⟨?_, fun i => ?_⟩
    · exact congrArg (fun t : State => { t with slots := s.slots }) h1
    · have h := h2 i
      simp only [writeTargets, List.foldl_cons] at h ⊢
      rw [h, modSlot_eq, slot_setSlot]
      by_cases hi : i = slotIx b g
      · subst hi
        simp only [bankOf_slotIx, groupOf_slotIx, true_and, if_true]
        rw [if_neg, if_pos]
        · exact ⟨b, by simp, rfl⟩
        · rintro ⟨b', hb', he⟩
          exact hb (Fin.ext he ▸ hb')
      · rw [if_neg hi]
        have : groupOf i = g.val → bankOf i ≠ b.val := fun hg hb' => hi ((eq_slotIx_iff i b g).mpr ⟨hb', hg⟩)
        congr 1
        simp only [List.mem_cons, exists_eq_or_imp, eq_iff_iff]
        constructor
        · rintro ⟨hg, b', hb', he⟩; exact ⟨hg, Or.inr ⟨b', hb', he⟩⟩
        · rintro ⟨hg, h | ⟨b', hb', he⟩⟩
          · exact absurd h (this hg)
          · exact ⟨hg, b', hb', he⟩

/-- The slots an FM write reaches, synchronised or not, in the words of `mirrored` (R142). -/
theorem mem_targets (s : State) (sync : Bool) (bank : BitVec 2) (g : GroupIx) (b : Nat) :
    (∃ b' ∈ s.targets sync bank.toFin g, b = b'.val) ↔
      b < 4 ∧ (if sync then mirrored (s.group g).sync.toNat bank.toNat b else b == bank.toNat) = true := by
  unfold State.targets
  cases sync
  · simp only [Bool.false_eq_true, if_false, List.mem_singleton, exists_eq_left, beq_iff_eq]
    have := bank.isLt
    simp only [BitVec.val_toFin]
    omega
  · simp only [if_true]
    constructor
    · rintro ⟨b', hb', rfl⟩
      exact ⟨b'.isLt, (mem_mirrorTargets _ _ _).mp hb'⟩
    · rintro ⟨hb, h⟩
      exact ⟨⟨b, hb⟩, (mem_mirrorTargets _ _ _).mpr h, rfl⟩

theorem nodup_targets (s : State) (sync : Bool) (bank : Bank) (g : GroupIx) : (s.targets sync bank g).Nodup := by
  unfold State.targets
  cases sync
  · simp
  · exact nodup_mirrorTargets _ _

/-- The slots an FM data write reaches (R142). -/
def fmHits (s : State) (sync : Bool) (bank : BitVec 2) (n : Nibble) (i : SlotIx) : Bool :=
  if sync then reachesFmSlot s bank n i else namesFmSlot bank n i

/-- The condition of a write of the targets is `fmHits`. -/
theorem fmHits_iff (s : State) (sync : Bool) (bank : BitVec 2) (n : Nibble) (g : GroupIx) (hg : g.val = selectedGroup n)
    (i : SlotIx) :
    (groupOf i = g.val ∧ ∃ b ∈ s.targets sync bank.toFin g, bankOf i = b.val) ↔ fmHits s sync bank n i = true := by
  rw [mem_targets]
  have hb : bankOf i < 4 := by simp only [bankOf]; omega
  have hlt := g.isLt
  cases sync
  · simp only [fmHits, Bool.false_eq_true, if_false, namesFmSlot, beq_iff_eq, groupOf, bankOf, ← hg]
    omega
  · simp only [fmHits, if_true, reachesFmSlot, Bool.and_eq_true, beq_iff_eq, ← hg, hb, true_and]
    constructor
    · rintro ⟨h1, h2⟩
      refine ⟨h1, ?_⟩
      have : (⟨i.val % 12, Nat.mod_lt _ (by omega)⟩ : GroupIx) = g := Fin.ext h1
      rw [this]; exact h2
    · rintro ⟨h1, h2⟩
      refine ⟨h1, ?_⟩
      have : (⟨i.val % 12, Nat.mod_lt _ (by omega)⟩ : GroupIx) = g := Fin.ext h1
      rw [this] at h2; exact h2

/-- An FM data write of fields, as a whole (R140, R141, R142). -/
theorem fmWrite_writes (sync : Bool) (bank : BitVec 2) (n : Nibble) (d : Byte) (f : Slot → Slot) (s : State)
    (h : selectorValid n = true) :
    WritesSlots (fmDataPort bank) d (fmHits s sync bank n) f s
      (fmWrite sync bank n d (fun i s1 => s1.modSlot i f) s) := by
  obtain ⟨g, hg, hv⟩ := fmTab_valid n h
  have hw := writeTargets_modSlot f g ((s.setReg (fmDataPort bank) d).targets sync bank.toFin g)
    (s.setReg (fmDataPort bank) d) (nodup_targets _ _ _ _)
  unfold fmWrite
  simp only [hg, port_fmData]
  generalize ht : writeTargets (fun i s1 => s1.modSlot i f) g
    ((s.setReg (fmDataPort bank) d).targets sync bank.toFin g) (s.setReg (fmDataPort bank) d) = t at hw ⊢
  obtain ⟨h1, h2⟩ := hw
  refine ⟨?_, fun p => ?_, fun i => ?_⟩
  · exact congrArg (fun u : State => { u with regs := s.regs }) h1
  · have h3 := congrArg State.regs h1
    rw [← reg_setReg]
    exact congrArg (fun r : Vector Byte 16 => r[p.toFin]) h3
  · rw [show (s.setReg (fmDataPort bank) d).targets sync bank.toFin g = s.targets sync bank.toFin g from rfl] at h2
    rw [h2 i, slot_setReg]
    by_cases hi : fmHits s sync bank n i = true
    · rw [if_pos hi, if_pos ((fmHits_iff _ sync bank n g hv i).mpr hi)]
    · rw [if_neg hi, if_neg (fun hc => hi ((fmHits_iff _ sync bank n g hv i).mp hc))]

/-- A PCM data write of fields, as a whole (R140, R141, R200). -/
theorem pcmWrite_writes (n : Nibble) (d : Byte) (f : Slot → Slot) (s : State) (h : selectorValid n = true) :
    WritesSlots 0x9#4 d (namesPcmSlot n) f s (pcmWrite n d f s) := by
  obtain ⟨ix, hi, hv⟩ := pcmTab_valid n h
  unfold pcmWrite
  simp only [hi, PortRole.port]
  refine ⟨rfl, fun p => ?_, fun i => ?_⟩
  · rw [modSlot_eq, reg_setSlot, reg_setReg]
  · rw [modSlot_eq, slot_setSlot, slot_setReg, slot_setReg]
    simp only [namesPcmSlot, beq_iff_eq, ← hv, Fin.ext_iff]
    split
    · rename_i hc
      have : i = ix := Fin.ext hc
      rw [this]
    · rfl

/-- A store of a port register (R140). -/
theorem storesByte_setReg (p : Port) (d : Byte) (s : State) : StoresByte p d s (s.setReg p d) :=
  fun q => reg_setReg s p q d

/-! ### All groups, the IRQ event -/

theorem mem_allGroups (g : GroupIx) : g ∈ allGroups := by
  revert g; decide

theorem nodup_allGroups : allGroups.Nodup := by decide

/-- A change over a list of groups, each once. -/
theorem foldl_setGroup (f : GroupIx → Group → Group) : ∀ (gs : List GroupIx) (s : State), gs.Nodup →
    { gs.foldl (fun s' g => s'.setGroup g (f g (s'.group g))) s with groups := s.groups } = s ∧
      ∀ g, (gs.foldl (fun s' g => s'.setGroup g (f g (s'.group g))) s).group g =
        if g ∈ gs then f g (s.group g) else s.group g
  | [], s, _ => ⟨rfl, fun g => by simp⟩
  | x :: xs, s, hn => by
    obtain ⟨hx, hxs⟩ := List.nodup_cons.mp hn
    obtain ⟨h1, h2⟩ := foldl_setGroup f xs (s.setGroup x (f x (s.group x))) hxs
    refine ⟨?_, fun g => ?_⟩
    · exact congrArg (fun t : State => { t with groups := s.groups }) h1
    · have h := h2 g
      simp only [List.foldl_cons] at h ⊢
      rw [h, group_setGroup]
      by_cases hg : g = x
      · subst hg; simp [hx]
      · simp [hg]

/-- A change over all groups touches the groups only, each by its function. -/
theorem mapGroups_frame (s : State) (f : GroupIx → Group → Group) : { s.mapGroups f with groups := s.groups } = s :=
  (foldl_setGroup f allGroups s nodup_allGroups).1

theorem group_mapGroups (s : State) (f : GroupIx → Group → Group) (g : GroupIx) :
    (s.mapGroups f).group g = f g (s.group g) := by
  have := (foldl_setGroup f allGroups s nodup_allGroups).2 g
  rwa [if_pos (mem_allGroups g)] at this

/-- The IRQ event: emitted exactly when the level differs from the one before the step (R505). -/
theorem noteIrq_eq (s : State) (b : Bool) :
    s.noteIrq b = { s with events := if s.irq = b then s.events else s.events ++ [.irqChanged s.irq] } := by
  unfold State.noteIrq
  split <;> rfl

/-! ### Key writes -/

/-- The step reads the pitch fields and the pitch-LFO multiplier only. -/
theorem calcStep_congr (c : Config) {t u : Slot} (h1 : u.waveform = t.waveform) (h2 : u.block = t.block)
    (h3 : u.fns = t.fns) (h4 : u.multiple = t.multiple) (h5 : u.detune = t.detune) (h6 : u.fs = t.fs)
    (h7 : u.srcnote = t.srcnote) (h8 : u.srcb = t.srcb) (h9 : u.lfoPhasemod = t.lfoPhasemod) :
    calcStep c u = calcStep c t := by
  unfold calcStep internalStep externalStep keycode internalKeycode externalKeycode Slot.external Slot.fns11
  rw [h1, h2, h3, h4, h5, h6, h7, h8, h9]

/-- The envelope steps read the rate and keycode fields only. -/
theorem envStepOf_congr (c : Config) {t u : Slot} (e : EnvState) (h1 : u.waveform = t.waveform) (h2 : u.block = t.block)
    (h3 : u.fns = t.fns) (h4 : u.keyscale = t.keyscale) (h5 : u.ar = t.ar) (h6 : u.d1r = t.d1r) (h7 : u.d2r = t.d2r)
    (h8 : u.rr = t.rr) (h9 : u.d1l = t.d1l) (h10 : u.srcnote = t.srcnote) (h11 : u.srcb = t.srcb) :
    envStepOf c u e = envStepOf c t e := by
  have hk : keycode u = keycode t := by
    unfold keycode internalKeycode externalKeycode Slot.external Slot.fns11
    rw [h1, h2, h3, h10, h11]
  have hb : rateBase u e = rateBase t e := by cases e <;> simp [rateBase, h5, h6, h7, h8]
  have hd : sweepDelta u e = sweepDelta t e := by cases e <;> simp [sweepDelta, h9]
  unfold envStepOf effectiveRate
  rw [hk, hb, hd, h4]

/-- The sweep of R236 is the truncated quotient of integers that the model computes. -/
theorem sweepStep_eq (c : Config) (delta : Nat) (lut : PosFrac) :
    sweepStep c delta lut = ⌊(delta : ℚ) / (lut.value * (stdClock.value / c.clock.value)) * 65536⌋₊ := by
  unfold sweepStep
  rw [← Nat.floor_div_eq_div (K := ℚ)]
  congr 1
  simp only [PosFrac.value]
  push_cast
  have h1 : ((lut.num : Nat) : ℚ) ≠ 0 := Nat.cast_ne_zero.mpr (Nat.succ_ne_zero _)
  have h2 : ((lut.den : Nat) : ℚ) ≠ 0 := Nat.cast_ne_zero.mpr (Nat.succ_ne_zero _)
  have h3 : ((c.clock.num : Nat) : ℚ) ≠ 0 := Nat.cast_ne_zero.mpr (Nat.succ_ne_zero _)
  have h4 : ((c.clock.den : Nat) : ℚ) ≠ 0 := Nat.cast_ne_zero.mpr (Nat.succ_ne_zero _)
  have h5 : ((stdClock.num : Nat) : ℚ) ≠ 0 := Nat.cast_ne_zero.mpr (Nat.succ_ne_zero _)
  have h6 : ((stdClock.den : Nat) : ℚ) ≠ 0 := Nat.cast_ne_zero.mpr (Nat.succ_ne_zero _)
  push_cast at h1 h2 h3 h4 h5 h6
  field_simp

/-- The envelope step of a state is the one of its rate (R236). -/
theorem envStepOf_eq (c : Config) (t : Slot) (e : EnvState) : envStepOf c t e = keyOnEnvStep c t e := by
  cases e <;> simp only [envStepOf, keyOnEnvStep, sweepOf, sweepStep_eq, sweepDelta, sweepEntry]

/-- The LFO step of R275 is the truncated quotient of integers that the model computes. -/
theorem lfoStepOf_eq (c : Config) (t : Slot) :
    lfoStepOf c t = BitVec.ofNat 32
      ⌊256 * ((lutLFO c t.lfoFreq).value * (c.clock.value / stdClock.value)) / c.sampleRate.value * 256⌋₊ := by
  unfold lfoStepOf
  dsimp only
  rw [← Nat.floor_div_eq_div (K := ℚ)]
  congr 2
  simp only [PosFrac.value, NonnegFrac.value]
  push_cast
  field_simp
  norm_num
  ring

/-- The pointer of a key-on (R391). -/
theorem keyOnPointer_eq (c : Config) (t : Slot) :
    keyOnPointer c t = if c.pcmAddrMode = .absolute ∧ t.waveform = 7#3 then BitVec.ofNat 64 (t.startaddr.toNat * 65536)
      else 0#64 := by
  unfold keyOnPointer Slot.external
  cases c.pcmAddrMode <;> simp

/-- A key-on of one slot gives a slot right after a key-on (R171). -/
theorem keyOnSlot_keyedOn (c : Config) (t : Slot) : KeyedOn c t (keyOnSlot c t) := by
  unfold keyOnSlot initEnvelope Slot.withStep initLfo
  refine ⟨rfl, rfl, rfl, lfoStepOf_eq c t, rfl, rfl, keyOnPointer_eq c t, ?_, ?_, ?_, ?_, ?_, rfl, rfl, rfl, rfl, rfl⟩
  all_goals dsimp only
  · apply calcStep_congr <;> rfl
  all_goals
    rw [← envStepOf_eq]
    apply envStepOf_congr <;> rfl

end Sys2Proof.Machine
end

