-- ==== Sys2Proof/Laws/Slot.lean ====
section
/-! SUPPORT. What the operations on one slot can do: the ticks, an operator, the PCM pointer. Each keeps the
register-backed fields and the ranges, and none makes an inactive slot active. -/

namespace Sys2Proof.Machine

open Sys2Proof

/-! ### Keeping the registers -/

theorem sameRegisters_refl (t : Slot) : SameRegisters t t := rfl

theorem sameRegisters_trans {t u v : Slot} (h : SameRegisters t u) (h' : SameRegisters u v) : SameRegisters t v := by
  unfold SameRegisters at *
  rw [← h, ← h']

/-- What a tick, an operator or a pointer operation keeps of a slot: the register-backed fields, the ranges (R36), and
an inactive slot stays inactive (R37). -/
def SlotKept (c : Config) (t u : Slot) : Prop :=
  SameRegisters t u ∧ (GoodConfig c → GoodSlot t → GoodSlot u) ∧ (u.active = true → t.active = true)

theorem slotKept_refl (c : Config) (t : Slot) : SlotKept c t t := ⟨rfl, fun _ h => h, fun h => h⟩

theorem slotKept_trans {c : Config} {t u v : Slot} (h : SlotKept c t u) (h' : SlotKept c u v) : SlotKept c t v :=
  ⟨sameRegisters_trans h.1 h'.1, fun hc hg => h'.2.1 hc (h.2.1 hc hg), fun ha => h.2.2 (h'.2.2 ha)⟩

/-! ### The envelope -/

theorem sar_eq (a : Int) (k : Nat) : sar a k = a / 2 ^ k := by
  simp [sar, Int.shiftRight_eq_div_pow]

theorem volumeTop_eq : volumeTop = 255 * 65536 := rfl

theorem volumeStart_eq : volumeStart = 95 * 65536 := rfl

/-- The end check, as one formula (R239). -/
theorem endCheck_eq (t : Slot) :
    endCheck t = (decide (t.volume ≤ 0),
      { t with active := t.active && decide (0 < t.volume), volume := max t.volume 0 }) := by
  unfold endCheck
  by_cases h : t.volume ≤ 0
  · simp [h, not_lt.mpr h]
  · have : max t.volume 0 = t.volume := max_eq_left (by omega)
    simp [h, not_le.mp h, this]

/-- One tick in ATTACK, as one formula (R238). -/
theorem tickAttack_eq (t : Slot) :
    tickAttack t = { t with
      volume := min (t.volume + t.envStepAttack) volumeTop
      envState := if volumeTop ≤ t.volume + t.envStepAttack then .decay1 else t.envState } := by
  unfold tickAttack
  by_cases h : volumeTop ≤ t.volume + t.envStepAttack
  · simp [h]
  · simp [h, min_eq_left (le_of_lt (not_le.mp h))]

/-- One tick in DECAY1, as one formula (R238, R239). -/
theorem tickDecay1_eq (t : Slot) :
    tickDecay1 t = { t with
      active := t.active && decide (0 < t.volume - t.envStepDecay1)
      volume := max (t.volume - t.envStepDecay1) 0
      envState := if 0 < t.volume - t.envStepDecay1 ∧ (t.volume - t.envStepDecay1) / 65536 ≤ decayLevel t
        then .decay2 else t.envState } := by
  unfold tickDecay1
  rw [endCheck_eq]
  simp only [sar_eq]
  by_cases h : 0 < t.volume - t.envStepDecay1
  · have h1 : max (t.volume - t.envStepDecay1) 0 = t.volume - t.envStepDecay1 := max_eq_left (by omega)
    simp only [h1, h, not_le.mpr h, decide_false, decide_true, Bool.not_false, Bool.true_and, Bool.and_true, true_and,
      decide_eq_true_eq]
    by_cases h2 : (t.volume - t.envStepDecay1) / 65536 ≤ decayLevel t
    · rw [if_pos (by simpa [decayLevel] using h2), if_pos h2]
    · rw [if_neg (by simpa [decayLevel] using h2), if_neg h2]
  · simp only [not_lt.mp h, decide_true, Bool.not_true, Bool.false_and, Bool.false_eq_true, if_false]
    rw [if_neg (fun hc => h hc.1)]

/-- A tick changes `volume`, `active` and `env_state` only (R238). -/
theorem updateEnvelope_frame (t : Slot) :
    { updateEnvelope t with volume := t.volume, active := t.active, envState := t.envState } = t := by
  unfold updateEnvelope
  split
  · rw [tickAttack_eq]
  · rw [tickDecay1_eq]
  · rw [endCheck_eq]
  · rw [endCheck_eq]

theorem updateEnvelope_kept (c : Config) (t : Slot) : SlotKept c t (updateEnvelope t) := by
  refine ⟨?_, fun _ hg => ?_, fun ha => ?_⟩
  · unfold SameRegisters updateEnvelope
    split
    · rw [tickAttack_eq]
    · rw [tickDecay1_eq]
    · rw [endCheck_eq]
    · rw [endCheck_eq]
  · obtain ⟨h0, h1, h2⟩ := hg
    have hv := volumeTop_eq
    unfold updateEnvelope
    split
    · rw [tickAttack_eq]; exact ⟨by simp only; omega, by simp only; omega, h2⟩
    · rw [tickDecay1_eq]; exact ⟨by simp only; omega, by simp only; omega, h2⟩
    · rw [endCheck_eq]; exact ⟨by simp only; omega, by simp only; omega, h2⟩
    · rw [endCheck_eq]; exact ⟨by simp only; omega, by simp only; omega, h2⟩
  · unfold updateEnvelope at ha
    split at ha
    · rw [tickAttack_eq] at ha; exact ha
    · rw [tickDecay1_eq] at ha; simp only [Bool.and_eq_true] at ha; exact ha.1
    · rw [endCheck_eq] at ha; simp only [Bool.and_eq_true] at ha; exact ha.1
    · rw [endCheck_eq] at ha; simp only [Bool.and_eq_true] at ha; exact ha.1

/-! ### The LFO -/

theorem lfoIndex_lt (p : BitVec 32) : lfoIndex p < 256 := (p.extractLsb' 8 8).isLt

theorem updateLfo_kept (c : Config) (t : Slot) : SlotKept c t (updateLfo c t) :=
  ⟨rfl, fun hc hg => ⟨hg.1, hg.2.1, alfoAt_le hc _ (lfoIndex_lt _)⟩, fun h => h⟩

theorem slotTick_kept (c : Config) (t : Slot) : SlotKept c t (slotTick c t) :=
  slotKept_trans (updateEnvelope_kept c t) (updateLfo_kept c _)

/-! ### Volume and operators -/

/-- The slot volume is a 16.16 gain of at most 1 (R305). -/
theorem slotVolume_le {c : Config} (hc : GoodConfig c) (t : Slot) : slotVolume c t ≤ 65536 := by
  unfold slotVolume
  rw [Nat.shiftRight_eq_div_pow, Nat.shiftRight_eq_div_pow]
  have h1 := evAt_le (255 - sar t.volume 16).toNat
  have h2 := alfoGainAt_le hc t.ams t.lfoAmplitude
  have h3 := tlAt_le t.tl.toNat
  generalize evAt (255 - sar t.volume 16).toNat = a at *
  generalize alfoGainAt c t.ams t.lfoAmplitude = b at *
  generalize tlAt t.tl.toNat = d at *
  have h4 : a * b / 65536 ≤ 65536 := Nat.div_le_of_le_mul (Nat.mul_le_mul h1 h2)
  exact Nat.div_le_of_le_mul (Nat.mul_le_mul h4 h3)

/-- A signed 16-bit sample at a gain of at most 1 is a signed 16-bit value (R309). -/
theorem scaled_range {x : Int} {e : Nat} (h1 : -32768 ≤ x) (h2 : x ≤ 32767) (he : e ≤ 65536) :
    -32768 ≤ scaled x e ∧ scaled x e ≤ 32767 := by
  unfold scaled
  rw [sar_eq]
  have he' : (e : Int) ≤ 65536 := by exact_mod_cast he
  have hn : (0 : Int) ≤ e := Int.natCast_nonneg e
  have hlo : -32768 * 65536 ≤ x * (e : Int) := by
    rcases le_total 0 x with h | h
    · have := mul_nonneg h hn; omega
    · nlinarith
  have hhi : x * (e : Int) ≤ 32767 * 65536 := by
    rcases le_total 0 x with h | h
    · nlinarith
    · have := mul_nonneg (neg_nonneg.mpr h) hn; nlinarith
  constructor
  · exact Int.le_ediv_of_mul_le (by norm_num) (by simpa using hlo)
  · exact Int.ediv_le_of_le_mul (by norm_num) (by omega)

/-- Reading the modulation input changes `fb_mod0` at most (R300, R302). -/
theorem readInput_slot (t : Slot) (inp : OpInput) :
    (readInput t inp).2 = { t with fbMod0 := if inp = .feedback then t.fbMod1 else t.fbMod0 } := by
  cases inp <;> simp [readInput, feedbackInput]

theorem readInput_kept (c : Config) (t : Slot) (inp : OpInput) : SlotKept c t (readInput t inp).2 := by
  rw [readInput_slot]
  exact ⟨rfl, fun _ h => h, fun h => h⟩

theorem calculateOp_kept (c : Config) (t : Slot) (inp : OpInput) : SlotKept c t (calculateOp c t inp).2 :=
  slotKept_trans (slotKept_trans (slotTick_kept c t) (readInput_kept c _ inp)) ⟨rfl, fun _ h => h, fun h => h⟩

theorem setFeedback_kept (c : Config) (t : Slot) (v : Int) : SlotKept c t (setFeedback t v) :=
  ⟨rfl, fun _ h => h, fun h => h⟩

/-! ### PCM -/

theorem signed16_range (a b : Byte) : -32768 ≤ signed16 a b ∧ signed16 a b ≤ 32767 := by
  unfold signed16
  have h1 := BitVec.toInt_lt (x := a ++ b)
  have h2 := BitVec.le_toInt (x := a ++ b)
  omega

/-- A fetched sample is a signed 16-bit value (R393). -/
theorem pcmSample_range (m : Rom) (t : Slot) (i : Int) : -32768 ≤ pcmSample m t i ∧ pcmSample m t i ≤ 32767 := by
  unfold pcmSample
  split
  · exact signed16_range _ _
  · dsimp only; split <;> exact signed16_range _ _

theorem pcmAdvance_kept (c : Config) (t : Slot) : SlotKept c t (pcmAdvance t) :=
  ⟨rfl, fun _ h => h, fun h => h⟩

/-- The loop rules change the pointer and the direction only (R395 to R397). -/
theorem loopCheck_frame (t : Slot) :
    { (loopCheck t).1 with stepptr := t.stepptr, loopDirection := t.loopDirection } = t := by
  unfold loopCheck
  dsimp only
  split
  · split
    · split <;> rfl
    · rfl
  · split <;> rfl

theorem loopCheck_kept (c : Config) (t : Slot) : SlotKept c t (loopCheck t).1 := by
  have h : (loopCheck t).1 =
      { t with stepptr := (loopCheck t).1.stepptr, loopDirection := (loopCheck t).1.loopDirection } :=
    congrArg (fun v : Slot =>
      { v with stepptr := (loopCheck t).1.stepptr, loopDirection := (loopCheck t).1.loopDirection }) (loopCheck_frame t)
  rw [h]
  exact ⟨rfl, fun _ h => h, fun h => h⟩

theorem advanceAndLoop_kept (c : Config) (t : Slot) : SlotKept c t (advanceAndLoop t).1 :=
  slotKept_trans (pcmAdvance_kept c t) (loopCheck_kept c _)

theorem pfmOp_kept (c : Config) (m : Rom) (t : Slot) (inp : OpInput) : SlotKept c t (pfmOp c m t inp).2.1 :=
  slotKept_trans (slotKept_trans (slotTick_kept c t) (readInput_kept c _ inp)) (advanceAndLoop_kept c _)

/-- Operator and PFM results are signed 16-bit values (R309). -/
theorem calculateOp_range {c : Config} (hc : GoodConfig c) (t : Slot) (inp : OpInput) :
    -32768 ≤ (calculateOp c t inp).1 ∧ (calculateOp c t inp).1 ≤ 32767 := by
  have h := waveAt_natAbs_le (readInput (slotTick c t) inp).2.waveform
    (phaseIndex (readInput (slotTick c t) inp).2.stepptr (readInput (slotTick c t) inp).1)
  have h' : ∀ x : Int, x.natAbs ≤ 32767 → -32768 ≤ x ∧ x ≤ 32767 := fun x hx => by omega
  exact scaled_range (h' _ h).1 (h' _ h).2 (slotVolume_le hc _)

theorem pfmOp_range {c : Config} (hc : GoodConfig c) (m : Rom) (t : Slot) (inp : OpInput) :
    -32768 ≤ (pfmOp c m t inp).1 ∧ (pfmOp c m t inp).1 ≤ 32767 :=
  have h := pcmSample_range m (readInput (slotTick c t) inp).2
    (sampleIndex c (readInput (slotTick c t) inp).2
      ((readInput (slotTick c t) inp).2.stepptr.toInt + (readInput (slotTick c t) inp).1))
  scaled_range h.1 h.2 (slotVolume_le hc _)

end Sys2Proof.Machine
end

