-- ==== Sys2Proof/Laws/Render.lean ====
section
/-! SUPPORT. What rendering can do: one relation between the state before and the state after, kept by every operation
from a single operator call to a whole group, and the facts about gates and samples that the update engine rests on. -/

namespace Sys2Proof.Machine

open Sys2Proof

/-- What rendering can do to the state, where `r` says which slots it may reach: the dynamic state of those slots, end
markers that they own, contents of the two buffers, the position; nothing else (R330, R392, R424). -/
def Rendered (r : SlotIx → Prop) (s t : State) : Prop :=
  { t with slots := s.slots, endStatus := s.endStatus, mixbuf := s.mixbuf, accbuf := s.accbuf, pos := s.pos } = s ∧
    t.mixbuf.length = s.mixbuf.length ∧ t.accbuf.length = s.accbuf.length ∧
    (∀ i : SlotIx, SlotKept s.config (s.slot i) (t.slot i)) ∧ (∀ i : SlotIx, ¬r i → t.slot i = s.slot i) ∧
    (∀ k, s.endStatus.getLsbD k = true → t.endStatus.getLsbD k = true) ∧
    (∀ k, t.endStatus.getLsbD k = true → s.endStatus.getLsbD k = true ∨ ∃ i, r i ∧ i.val = 4 * k) ∧
    ((∀ f ∈ s.accbuf, GoodAccFrame f) → ∀ f ∈ t.accbuf, GoodAccFrame f)

theorem rendered_refl (r : SlotIx → Prop) (s : State) : Rendered r s s :=
  ⟨rfl, rfl, rfl, fun _ => slotKept_refl _ _, fun _ _ => rfl, fun _ h => h, fun _ h => Or.inl h, fun h => h⟩

theorem Rendered.config {r : SlotIx → Prop} {s t : State} (h : Rendered r s t) : t.config = s.config := by
  have h' := congrArg (fun u : State => u.config) h.1
  exact h'

theorem Rendered.rom {r : SlotIx → Prop} {s t : State} (h : Rendered r s t) : t.rom = s.rom := by
  have h' := congrArg (fun u : State => u.rom) h.1
  exact h'

theorem Rendered.groups {r : SlotIx → Prop} {s t : State} (h : Rendered r s t) : t.groups = s.groups := by
  have h' := congrArg (fun u : State => u.groups) h.1
  exact h'

theorem Rendered.group {r : SlotIx → Prop} {s t : State} (h : Rendered r s t) (g : GroupIx) : t.group g = s.group g := by
  unfold State.group
  rw [h.groups]

theorem rendered_trans {r : SlotIx → Prop} {s t u : State} (h : Rendered r s t) (h' : Rendered r t u) :
    Rendered r s u := by
  have hc := h.config
  obtain ⟨f1, m1, a1, k1, o1, e1, n1, g1⟩ := h
  obtain ⟨f2, m2, a2, k2, o2, e2, n2, g2⟩ := h'
  refine ⟨?_, m2.trans m1, a2.trans a1, fun i => slotKept_trans (k1 i) (hc ▸ k2 i), fun i hi => ?_,
    fun k hk => e2 k (e1 k hk), fun k hk => ?_, fun hs => g2 (g1 hs)⟩
  · have := congrArg (fun v : State => { v with
      slots := s.slots, endStatus := s.endStatus, mixbuf := s.mixbuf, accbuf := s.accbuf, pos := s.pos }) f2
    exact this.trans f1
  · rw [o2 i hi, o1 i hi]
  · rcases n2 k hk with h | h
    · exact n1 k h
    · exact Or.inr h

theorem rendered_mono {r r' : SlotIx → Prop} {s t : State} (hr : ∀ i, r i → r' i) (h : Rendered r s t) :
    Rendered r' s t := by
  obtain ⟨f1, m1, a1, k1, o1, e1, n1, g1⟩ := h
  exact ⟨f1, m1, a1, k1, fun i hi => o1 i fun hc => hi (hr i hc), e1,
    fun k hk => (n1 k hk).imp_right fun ⟨i, hi, hk⟩ => ⟨i, hr i hi, hk⟩, g1⟩

/-- A fold of operations that render renders. -/
theorem rendered_foldl {α : Type} {r : SlotIx → Prop} {f : State → α → State} (hf : ∀ s a, Rendered r s (f s a))
    (l : List α) (s : State) : Rendered r s (l.foldl f s) := by
  induction l generalizing s with
  | nil => exact rendered_refl r s
  | cons a l ih => exact rendered_trans (hf s a) (ih (f s a))

/-! ### Single operations -/

theorem rendered_setSlot {r : SlotIx → Prop} (s : State) (i : SlotIx) (t : Slot) (hi : r i)
    (ht : SlotKept s.config (s.slot i) t) : Rendered r s (s.setSlot i t) := by
  refine ⟨rfl, rfl, rfl, fun j => ?_, fun j hj => ?_, fun _ h => h, fun _ h => Or.inl h, fun h => h⟩
  · rw [slot_setSlot]
    split
    · rename_i hji; rw [hji]; exact ht
    · exact slotKept_refl _ _
  · rw [slot_setSlot, if_neg]
    rintro rfl
    exact hj hi

/-- One end marker after a loop event of a slot (R398). -/
theorem getLsbD_loopEvent (s : State) (i : SlotIx) (b : Bool) (k : Nat) :
    (s.loopEvent i b).endStatus.getLsbD k = (s.endStatus.getLsbD k || (b && decide (i.val = 4 * k))) := by
  unfold State.loopEvent State.setEndStatus
  have := i.isLt
  cases b
  · simp
  · simp only [if_true, Bool.true_and]
    by_cases h4 : i.val % 4 = 0
    · rw [if_pos h4]
      dsimp only
      rw [getLsbD_withBit]
      by_cases hk : i.val = 4 * k
      · rw [if_pos ⟨by omega, by omega⟩]; simp [hk]
      · rw [if_neg (by omega)]; simp [hk]
    · rw [if_neg h4]
      have : ¬i.val = 4 * k := by omega
      simp [this]

theorem rendered_loopEvent {r : SlotIx → Prop} (s : State) (i : SlotIx) (b : Bool) (hi : r i) :
    Rendered r s (s.loopEvent i b) := by
  have hs : { s.loopEvent i b with endStatus := s.endStatus } = s := by
    unfold State.loopEvent State.setEndStatus
    split
    · split <;> rfl
    · rfl
  have hslots : (s.loopEvent i b).slots = s.slots := by have h' := congrArg (fun u : State => u.slots) hs; exact h'
  have hslot : ∀ j : SlotIx, (s.loopEvent i b).slot j = s.slot j := fun j => by unfold State.slot; rw [hslots]
  have hm : (s.loopEvent i b).mixbuf = s.mixbuf := by have h' := congrArg (fun u : State => u.mixbuf) hs; exact h'
  have ha : (s.loopEvent i b).accbuf = s.accbuf := by have h' := congrArg (fun u : State => u.accbuf) hs; exact h'
  refine ⟨?_, by rw [hm], by rw [ha], fun j => ?_, fun j _ => hslot j, fun k hk => ?_, fun k hk => ?_, ?_⟩
  · exact congrArg (fun v : State => { v with
      slots := s.slots, endStatus := s.endStatus, mixbuf := s.mixbuf, accbuf := s.accbuf, pos := s.pos }) hs
  · rw [hslot]; exact slotKept_refl _ _
  · rw [getLsbD_loopEvent, hk, Bool.true_or]
  · rw [getLsbD_loopEvent, Bool.or_eq_true, Bool.and_eq_true, decide_eq_true_eq] at hk
    exact hk.imp_right fun h => ⟨i, hi, h.2⟩
  · rw [ha]; exact fun h => h

theorem rendered_mixDirect {r : SlotIx → Prop} (s : State) (i : Nat) (v : Channel → Int) :
    Rendered r s (s.mixDirect i v) :=
  ⟨rfl, by simp, rfl, fun _ => slotKept_refl _ _, fun _ _ => rfl, fun _ h => h, fun _ h => Or.inl h, fun h => h⟩

theorem sat18_range (v : Int) : -131072 ≤ sat18 v ∧ sat18 v ≤ 131071 := by
  unfold sat18 clamp
  omega

/-- A saturating add leaves a signed 18-bit value (R424, R428). -/
theorem eighteen_addSaturated (x : BitVec 32) (v : Int) : Eighteen (addSaturated x v) := by
  have := sat18_range (x.toInt + v)
  unfold Eighteen addSaturated
  rw [BitVec.toInt_ofInt, Int.bmod_eq_of_le (by omega) (by omega)]
  exact this

theorem mem_modify {α : Type} {l : List α} {i : Nat} {f : α → α} {x : α} (h : x ∈ l.modify i f) :
    x ∈ l ∨ ∃ y ∈ l, x = f y := by
  induction l generalizing i with
  | nil => simp at h
  | cons a l ih =>
    cases i with
    | zero =>
      simp only [List.modify_zero_cons, List.mem_cons] at h
      rcases h with h | h
      · exact Or.inr ⟨a, by simp, h⟩
      · exact Or.inl (by simp [h])
    | succ i =>
      simp only [List.modify_succ_cons, List.mem_cons] at h
      rcases h with h | h
      · exact Or.inl (by simp [h])
      · rcases ih h with h | ⟨y, hy, h⟩
        · exact Or.inl (by simp [h])
        · exact Or.inr ⟨y, by simp [hy], h⟩

theorem rendered_mixAcc {r : SlotIx → Prop} (s : State) (i : Nat) (v : Channel → Int) :
    Rendered r s (s.mixAcc i v) := by
  refine ⟨rfl, rfl, by simp, fun _ => slotKept_refl _ _, fun _ _ => rfl, fun _ h => h, fun _ h => Or.inl h, ?_⟩
  intro h f hf
  rw [accbuf_mixAcc] at hf
  rcases mem_modify hf with hf | ⟨y, _, rfl⟩
  · exact h f hf
  · exact ⟨eighteen_addSaturated _ _, eighteen_addSaturated _ _, eighteen_addSaturated _ _, eighteen_addSaturated _ _⟩

theorem rendered_at {r : SlotIx → Prop} (s : State) (g : GroupIx) (p : Pair) : Rendered r s (s.at g p) :=
  ⟨rfl, rfl, rfl, fun _ => slotKept_refl _ _, fun _ _ => rfl, fun _ h => h, fun _ h => Or.inl h, fun h => h⟩

/-! ### Operators and networks -/

/-- The slots of a group. -/
def InGroup (g : GroupIx) (i : SlotIx) : Prop := groupOf i = g.val

theorem inGroup_slotIx (b : Bank) (g : GroupIx) : InGroup g (slotIx b g) := groupOf_slotIx b g

theorem rendered_evalOp {r : SlotIx → Prop} (s : State) (i : SlotIx) (pfm : Bool) (inp : OpInput) (hi : r i) :
    Rendered r s (s.evalOp i pfm inp).2 := by
  unfold State.evalOp
  have h := calculateOp_kept s.config (s.slot i) inp
  have h' := pfmOp_kept s.config s.rom (s.slot i) inp
  generalize calculateOp s.config (s.slot i) inp = x at h ⊢
  generalize pfmOp s.config s.rom (s.slot i) inp = y at h' ⊢
  cases pfm
  · exact rendered_setSlot s i _ hi h
  · exact rendered_trans (rendered_setSlot s i _ hi h') (rendered_loopEvent _ i _ hi)

theorem rendered_runStage (rt : Routing) (u : Unit4) (x : Locals × State) (st : Stage) :
    Rendered (InGroup u.group) x.2 (runStage rt u x st).2 := by
  cases st with
  | op k inp => exact rendered_evalOp _ _ _ _ (inGroup_slotIx _ _)
  | tap k => exact rendered_setSlot _ _ _ (inGroup_slotIx _ _) (setFeedback_kept _ _ _)

theorem rendered_runStages (rt : Routing) (u : Unit4) (s : State) :
    Rendered (InGroup u.group) s (runStages rt u s).2 := by
  have : ∀ (l : List Stage) (x : Locals × State), Rendered (InGroup u.group) x.2 (l.foldl (runStage rt u) x).2 := by
    intro l
    induction l with
    | nil => exact fun x => rendered_refl _ _
    | cons a l ih => exact fun x => rendered_trans (rendered_runStage rt u x a) (ih _)
  exact this rt.stages (Locals.zero, s)

theorem rendered_networkSample (rt : Routing) (u : Unit4) (i : Nat) (s : State) :
    Rendered (InGroup u.group) s (networkSample rt u i s) :=
  rendered_trans (rendered_runStages rt u s)
    (rendered_foldl (f := mixCarrier u i _) (fun s' _ => rendered_mixDirect s' _ _) _ _)

theorem rendered_pcmTick {r : SlotIx → Prop} (ix : SlotIx) (i : Nat) (s : State) (hi : r ix) :
    Rendered r s (pcmTick ix i s) := by
  unfold pcmTick
  dsimp only
  have hk := slotKept_trans (slotTick_kept s.config (s.slot ix)) (advanceAndLoop_kept _ _)
  generalize advanceAndLoop (slotTick s.config (s.slot ix)) = y at hk ⊢
  have hset : ∀ s' : State, Rendered r s s' → s'.config = s.config → s'.slot ix = s.slot ix →
      Rendered r s ((s'.setSlot ix y.1).loopEvent ix y.2) := fun s' h hc hs =>
    rendered_trans (rendered_trans h (rendered_setSlot s' ix y.1 hi (by rw [hc, hs]; exact hk)))
      (rendered_loopEvent _ ix _ hi)
  split
  · exact hset _ (rendered_mixAcc s i _) rfl rfl
  · exact hset _ (rendered_mixDirect s i _) rfl rfl

/-! ### Units -/

theorem rendered_forSamples {r : SlotIx → Prop} {f : Nat → State → State} (hf : ∀ i s, Rendered r s (f i s)) :
    ∀ (n i : Nat) (s : State), Rendered r s (forSamples f n i s)
  | 0, _, s => rendered_refl r s
  | n + 1, i, s => rendered_trans (hf i s) (rendered_forSamples hf n (i + 1) (f i s))

theorem rendered_renderGated {r : SlotIx → Prop} (gate : SlotIx) {f : Nat → State → State}
    (hf : ∀ i s, Rendered r s (f i s)) (s : State) : Rendered r s (renderGated gate f s) := by
  unfold renderGated
  split
  · exact rendered_forSamples hf _ _ _
  · exact rendered_refl r s

/-- A unit whose gate is 0 renders nothing (R451). -/
theorem renderGated_inactive (gate : SlotIx) (f : Nat → State → State) (s : State) (h : (s.slot gate).active = false) :
    renderGated gate f s = s := by
  unfold renderGated
  simp [h]

/-- The samples of a unit as a fold over the sample numbers (R452). -/
theorem forSamples_eq_foldl (f : Nat → State → State) : ∀ (n i : Nat) (s : State),
    forSamples f n i s = (List.range' i n).foldl (fun s' j => f j s') s
  | 0, _, _ => rfl
  | n + 1, i, s => by
    rw [forSamples, forSamples_eq_foldl f n (i + 1), List.range'_succ, List.foldl_cons]

/-- A gated unit in the words of the claims (R451, R452). -/
theorem renderGated_eq (gate : SlotIx) (f : Nat → State → State) (s : State) :
    renderGated gate f s = gatedUnit gate f s := by
  unfold renderGated gatedUnit
  rw [forSamples_eq_foldl, List.range_eq_range']
  rfl

theorem rendered_renderNetwork (rt : Routing) (p : Pair) (s : State) :
    Rendered (InGroup s.pos.group) s (renderNetwork rt p s) :=
  rendered_renderGated _ (fun i s' => rendered_networkSample rt ⟨s.pos.group, p⟩ i s') s

theorem rendered_renderVoice (b : Bank) (s : State) : Rendered (InGroup s.pos.group) s (renderVoice b s) :=
  rendered_renderGated _ (fun i s' => rendered_pcmTick _ i s' (inGroup_slotIx b s.pos.group)) s

/-! ### The position stays within a unit -/

theorem pos_networkSample (rt : Routing) (u : Unit4) (i : Nat) (s : State) : (networkSample rt u i s).pos = s.pos := by
  have hst : ∀ (x : Locals × State) (st : Stage), (runStage rt u x st).2.pos = x.2.pos := by
    intro x st
    cases st with
    | op k inp =>
      show (x.2.evalOp _ _ _).2.pos = x.2.pos
      unfold State.evalOp
      split <;> simp
    | tap k => rfl
  have hl : ∀ (l : List Stage) (x : Locals × State), (l.foldl (runStage rt u) x).2.pos = x.2.pos := by
    intro l
    induction l with
    | nil => exact fun _ => rfl
    | cons a l ih => exact fun x => (ih _).trans (hst x a)
  have hm : ∀ (lc : Locals) (l : List Seat) (x : State), (l.foldl (mixCarrier u i lc) x).pos = x.pos := by
    intro lc l
    induction l with
    | nil => exact fun _ => rfl
    | cons a l ih => exact fun x => (ih _).trans rfl
  exact (hm _ _ _).trans (hl _ _)

theorem pos_pcmTick (ix : SlotIx) (i : Nat) (s : State) : (pcmTick ix i s).pos = s.pos := by
  unfold pcmTick
  dsimp only
  rw [pos_loopEvent, pos_setSlot]
  split <;> rfl

theorem pos_forSamples {f : Nat → State → State} (hf : ∀ i s, (f i s).pos = s.pos) :
    ∀ (n i : Nat) (s : State), (forSamples f n i s).pos = s.pos
  | 0, _, _ => rfl
  | n + 1, i, s => (pos_forSamples hf n (i + 1) (f i s)).trans (hf i s)

theorem pos_renderGated (gate : SlotIx) {f : Nat → State → State} (hf : ∀ i s, (f i s).pos = s.pos) (s : State) :
    (renderGated gate f s).pos = s.pos := by
  unfold renderGated
  split
  · exact pos_forSamples hf _ _ _
  · rfl

theorem pos_renderNetwork (rt : Routing) (p : Pair) (s : State) : (renderNetwork rt p s).pos = s.pos :=
  pos_renderGated _ (fun i s' => pos_networkSample rt _ i s') s

theorem pos_renderVoice (b : Bank) (s : State) : (renderVoice b s).pos = s.pos :=
  pos_renderGated _ (fun i s' => pos_pcmTick _ i s') s

theorem rendered_renderVoices (s : State) : Rendered (InGroup s.pos.group) s (renderVoices s) := by
  have h0 := rendered_renderVoice 0 s
  have p0 := pos_renderVoice 0 s
  have h1 := rendered_renderVoice 1 (renderVoice 0 s)
  have p1 := pos_renderVoice 1 (renderVoice 0 s)
  have h2 := rendered_renderVoice 2 (renderVoice 1 (renderVoice 0 s))
  have p2 := pos_renderVoice 2 (renderVoice 1 (renderVoice 0 s))
  have h3 := rendered_renderVoice 3 (renderVoice 2 (renderVoice 1 (renderVoice 0 s)))
  rw [p2, p1, p0] at h3
  rw [p1, p0] at h2
  rw [p0] at h1
  exact rendered_trans (rendered_trans (rendered_trans h0 h1) h2) h3

theorem pos_renderVoices (s : State) : (renderVoices s).pos = s.pos := by
  unfold renderVoices
  rw [pos_renderVoice, pos_renderVoice, pos_renderVoice, pos_renderVoice]

theorem rendered_renderSelected (a : BitVec 6) (s : State) : Rendered (InGroup s.pos.group) s (renderSelected a s) := by
  unfold renderSelected
  dsimp only
  split
  · exact rendered_renderNetwork _ _ _
  · exact rendered_renderNetwork _ _ _
  · exact rendered_renderNetwork _ _ _
  · exact rendered_renderVoices _

theorem pos_renderSelected (a : BitVec 6) (s : State) : (renderSelected a s).pos = s.pos := by
  unfold renderSelected
  dsimp only
  split
  · exact pos_renderNetwork _ _ _
  · exact pos_renderNetwork _ _ _
  · exact pos_renderNetwork _ _ _
  · exact pos_renderVoices _

theorem rendered_renderUnit (s : State) : Rendered (InGroup s.pos.group) s (renderUnit s) :=
  rendered_renderSelected _ _

theorem pos_renderUnit (s : State) : (renderUnit s).pos = s.pos := pos_renderSelected _ _

/-! ### Groups and the whole call -/

theorem rendered_renderGroup (s : State) (g : GroupIx) : Rendered (InGroup g) s (renderGroup s g) := by
  have hu : ∀ (s' : State) (p : Pair), Rendered (InGroup g) s' (renderUnit (s'.at g p)) := fun s' p =>
    rendered_trans (rendered_at s' g p) (rendered_renderUnit (s'.at g p))
  have hp : (renderUnit (s.at g .a)).pos = ⟨g, .a⟩ := pos_renderUnit _
  unfold renderGroup
  split
  · exact rendered_refl _ _
  · split
    · exact rendered_trans (hu s .a) (hu _ .b)
    · have hv := rendered_renderVoice 3 (renderUnit (s.at g .a))
      rw [hp] at hv
      exact rendered_trans (hu s .a) hv
    · exact hu s .a

theorem rendered_renderAll (s : State) : Rendered (fun _ => True) s (renderAll s) :=
  rendered_foldl (f := renderGroup) (fun s' g => rendered_mono (fun _ _ => trivial) (rendered_renderGroup s' g)) _ _

/-- The slots of a group are changed by the rendering of that group only (R452). -/
theorem foldl_renderGroup_slot (g : GroupIx) : ∀ (l : List GroupIx) (s : State), g ∉ l →
    ∀ i, InGroup g i → (l.foldl renderGroup s).slot i = s.slot i
  | [], _, _, _, _ => rfl
  | x :: l, s, hx, i, hi => by
    have hgx : ¬InGroup x i := fun h => hx (by
      have : g = x := Fin.ext (hi.symm.trans h)
      simp [this])
    rw [List.foldl_cons, foldl_renderGroup_slot g l (renderGroup s x) (fun h => hx (by simp [h])) i hi]
    exact (rendered_renderGroup s x).2.2.2.2.1 i hgx

/-- A muted group is skipped (R453). -/
theorem renderGroup_muted (s : State) (g : GroupIx) (h : (s.group g).muted = true) : renderGroup s g = s := by
  unfold renderGroup
  rw [if_pos h]

/-- The end of a call touches the buffers, the position and the result only (R435, R436). -/
theorem closeCall_frame (s : State) :
    { s.closeCall with mixbuf := s.mixbuf, accbuf := s.accbuf, pos := s.pos, result := s.result } = s := rfl

end Sys2Proof.Machine
end

