-- ==== Sys2Proof/Laws/Network.lean ====
section
/-! SUPPORT. A routing in the words of the claims: the stages as a sequence of operator calls and feedback taps, each
handing its result to the rest, then the carriers' mix. -/

namespace Sys2Proof.Machine

open Sys2Proof

/-- A carrier's mix in the words of the claims (R333). -/
theorem mixCarrier_eq (u : Unit4) (i : Nat) (l : Locals) (s : State) (k : Seat) :
    mixCarrier u i l s k = mixOut u i k (l.get k) s := by
  unfold mixCarrier mixOut carrierPart
  simp only [sar_eq]
  rfl

/-- PFM is honoured exactly where R340 says so. -/
theorem pfmHonoured_iff (s : State) (g : GroupIx) : s.pfmHonoured g = true ↔ PfmCarriers s g := by
  have hg : ∀ g : GroupIx, g.val % 4 = 0 ↔ g ∈ ([0, 4, 8] : List GroupIx) := by decide
  have hs : ∀ b : BitVec 2, b ≠ 3#2 ↔ b.toNat ≤ 2 := by decide
  simp only [State.pfmHonoured, PfmCarriers, Bool.and_eq_true, beq_iff_eq, bne_iff_ne, hg, hs, and_assoc]

/-- An operator call in the words of the claims (R330, R340, R341). -/
theorem callOp_eq (u : Unit4) (carrier : Bool) (k : Seat) (inp : OpInput) (rest : Int → State → State) (s : State) :
    callOp u carrier k inp rest s =
      rest (s.evalOp (u.seat k) (s.pfmHonoured u.group && carrier) inp).1
        (s.evalOp (u.seat k) (s.pfmHonoured u.group && carrier) inp).2 := by
  unfold callOp State.evalOp
  cases carrier
  · simp
  · cases h : s.pfmHonoured u.group
    · have : ¬PfmCarriers s u.group := fun hp => by simp [(pfmHonoured_iff s u.group).mpr hp] at h
      simp [this]
    · simp [(pfmHonoured_iff s u.group).mp h]

/-- The stages of a routing as calls that hand their result on, then the mix of the carriers (R330, R333). -/
def sequenceOf (r : Routing) (u : Unit4) (i : Nat) : List Stage → Locals → State → State
  | [], l => fun s => r.carriers.foldl (fun s' k => mixOut u i k (l.get k) s') s
  | .op k inp :: rest, l =>
    callOp u (r.carriers.contains k) k (l.input inp) fun v => sequenceOf r u i rest (l.put k v)
  | .tap k :: rest, l => tapFeedback u (l.get k) (sequenceOf r u i rest l)

theorem sequenceOf_eq (r : Routing) (u : Unit4) (i : Nat) : ∀ (l : List Stage) (x : Locals) (s : State),
    sequenceOf r u i l x s =
      r.carriers.foldl (mixCarrier u i (l.foldl (runStage r u) (x, s)).1) (l.foldl (runStage r u) (x, s)).2
  | [], x, s => by
    have : (fun s' k => mixOut u i k (x.get k) s') = mixCarrier u i x := by
      funext s' k
      exact (mixCarrier_eq u i x s' k).symm
    show r.carriers.foldl (fun s' k => mixOut u i k (x.get k) s') s = r.carriers.foldl (mixCarrier u i x) s
    rw [this]
  | .op k inp :: rest, x, s => (callOp_eq u _ k _ _ s).trans (sequenceOf_eq r u i rest _ _)
  | .tap k :: rest, x, s => sequenceOf_eq r u i rest _ _

/-- One sample of a network is its sequence, from zero results (R330). -/
theorem networkSample_eq (r : Routing) (u : Unit4) (i : Nat) (s : State) :
    networkSample r u i s = sequenceOf r u i r.stages Locals.zero s := (sequenceOf_eq r u i _ _ _).symm

/-- A network of a unit in the words of the claims. -/
theorem renderNetwork_eq (r : Routing) (p : Pair) (s : State) :
    renderNetwork r p s =
      gatedUnit ((⟨s.pos.group, p⟩ : Unit4).seat .s1) (fun i => sequenceOf r ⟨s.pos.group, p⟩ i r.stages Locals.zero) s := by
  rw [← renderGated_eq]
  exact congrArg (fun f => renderGated _ f s) (funext fun i => funext fun s' => networkSample_eq r _ i s')

end Sys2Proof.Machine
end

