-- ==== Sys2Proof/Laws/PerInstr.lean ====
section
/-! SUPPORT. The per-instruction family: the encoding of each well-formed instruction is a word of that instruction's rows
of spec/opcode_table.json. `rowsOf` is transcribed from the table (format and fixed bits), not from the encoder. -/

namespace Sys2Proof.Laws

open Sys2Proof

/-- A row of the opcode table: its format and its fixed fields, each as (high bit, low bit, value). -/
structure Row where
  format : Format
  fixed : List (Nat × Nat × Nat)
  deriving DecidableEq, Repr

/-- The format of a packet that has bits. -/
def formatOf : Packet → Option Format
  | .pw _ => some .pw
  | .pr _ => some .pr
  | .al _ => some .al
  | .ho _ => none

/-- A packet has the format and the fixed bits of a row. -/
def Fits (p : Packet) (row : Row) : Prop :=
  formatOf p = some row.format ∧
    ∃ w, p.word = some w ∧ ∀ f ∈ row.fixed, w / 2 ^ f.2.1 % 2 ^ (f.1 + 1 - f.2.1) = f.2.2

/-- The rows of the opcode table for an instruction; a host operation has no bits (R104). -/
def rowsOf : Instr → List Row
  | .portLatchFm0 _ => [⟨.pw, [(19, 16, 0)]⟩]
  | .portLatchFm1 _ => [⟨.pw, [(19, 16, 2)]⟩]
  | .portLatchFm2 _ => [⟨.pw, [(19, 16, 4)]⟩]
  | .portLatchFm3 _ => [⟨.pw, [(19, 16, 6)]⟩]
  | .portLatchPcm _ => [⟨.pw, [(19, 16, 8)]⟩]
  | .portLatchTim _ => [⟨.pw, [(19, 16, 12)]⟩]
  | .portUnusedA _ => [⟨.pw, [(19, 16, 10)]⟩]
  | .portUnusedB _ => [⟨.pw, [(19, 16, 11)]⟩]
  | .portUnusedE _ => [⟨.pw, [(19, 16, 14)]⟩]
  | .portUnusedF _ => [⟨.pw, [(19, 16, 15)]⟩]
  | .fmInvalidSel _ _ _ _ => [⟨.pw, [(9, 8, 3), (16, 16, 1), (19, 19, 0)]⟩]
  | .fmKey _ _ _ => [⟨.pw, [(16, 12, 16), (19, 19, 0)]⟩]
  | .fmLfofreq _ _ _ => [⟨.pw, [(16, 12, 17), (19, 19, 0)]⟩]
  | .fmLfowave _ _ _ => [⟨.pw, [(16, 12, 18), (19, 19, 0)]⟩]
  | .fmMuldt _ _ _ => [⟨.pw, [(16, 12, 19), (19, 19, 0)]⟩]
  | .fmTl _ _ _ => [⟨.pw, [(16, 12, 20), (19, 19, 0)]⟩]
  | .fmAr _ _ _ => [⟨.pw, [(16, 12, 21), (19, 19, 0)]⟩]
  | .fmD1r _ _ _ => [⟨.pw, [(16, 12, 22), (19, 19, 0)]⟩]
  | .fmD2r _ _ _ => [⟨.pw, [(16, 12, 23), (19, 19, 0)]⟩]
  | .fmRrd1l _ _ _ => [⟨.pw, [(16, 12, 24), (19, 19, 0)]⟩]
  | .fmFnslo _ _ _ => [⟨.pw, [(16, 12, 25), (19, 19, 0)]⟩]
  | .fmFnshi _ _ _ => [⟨.pw, [(16, 12, 26), (19, 19, 0)]⟩]
  | .fmWave _ _ _ => [⟨.pw, [(16, 12, 27), (19, 19, 0)]⟩]
  | .fmAlg _ _ _ => [⟨.pw, [(16, 12, 28), (19, 19, 0)]⟩]
  | .fmCh01 _ _ _ => [⟨.pw, [(16, 12, 29), (19, 19, 0)]⟩]
  | .fmCh23 _ _ _ => [⟨.pw, [(16, 12, 30), (19, 19, 0)]⟩]
  | .fmReserved _ _ _ => [⟨.pw, [(16, 12, 31), (19, 19, 0)]⟩]
  | .pcmInvalidSel _ _ _ => [⟨.pw, [(9, 8, 3), (19, 16, 9)]⟩]
  | .pcmStart0 _ _ => [⟨.pw, [(19, 12, 144)]⟩]
  | .pcmStart1 _ _ => [⟨.pw, [(19, 12, 145)]⟩]
  | .pcmStart2 _ _ => [⟨.pw, [(19, 12, 146)]⟩]
  | .pcmEnd0 _ _ => [⟨.pw, [(19, 12, 147)]⟩]
  | .pcmEnd1 _ _ => [⟨.pw, [(19, 12, 148)]⟩]
  | .pcmEnd2 _ _ => [⟨.pw, [(19, 12, 149)]⟩]
  | .pcmLoop0 _ _ => [⟨.pw, [(19, 12, 150)]⟩]
  | .pcmLoop1 _ _ => [⟨.pw, [(19, 12, 151)]⟩]
  | .pcmLoop2 _ _ => [⟨.pw, [(19, 12, 152)]⟩]
  | .pcmFormat _ _ => [⟨.pw, [(19, 12, 153)]⟩]
  | .pcmReserved _ _ _ => [⟨.pw, [(19, 13, 77)]⟩, ⟨.pw, [(19, 14, 39)]⟩]
  | .grpSync _ _ => [⟨.pw, [(19, 12, 208)]⟩]
  | .timAHi _ => [⟨.pw, [(19, 8, 3344)]⟩]
  | .timALo _ => [⟨.pw, [(19, 8, 3345)]⟩]
  | .timB _ => [⟨.pw, [(19, 8, 3346)]⟩]
  | .timCtrl _ => [⟨.pw, [(19, 8, 3347)]⟩]
  | .extAddr0 _ => [⟨.pw, [(19, 8, 3348)]⟩]
  | .extAddr1 _ => [⟨.pw, [(19, 8, 3349)]⟩]
  | .extAddr2 _ => [⟨.pw, [(19, 8, 3350)]⟩]
  | .extData _ => [⟨.pw, [(19, 8, 3351)]⟩]
  | .timReserved _ _ =>
    [⟨.pw, [(19, 11, 419)]⟩,
      ⟨.pw, [(19, 13, 105)]⟩,
      ⟨.pw, [(19, 14, 53)]⟩,
      ⟨.pw, [(19, 15, 27)]⟩]
  | .readStatus0 => [⟨.pr, [(3, 0, 0)]⟩]
  | .readStatus1 => [⟨.pr, [(3, 0, 1)]⟩]
  | .readExtdata => [⟨.pr, [(3, 0, 2)]⟩]
  | .readUndoc _ => [⟨.pr, [(3, 0, 3)]⟩, ⟨.pr, [(3, 2, 1)]⟩, ⟨.pr, [(3, 3, 1)]⟩]
  | .hostUpdate _ => []
  | .hostReset => []
  | .hostStart _ => []
  | .hostTickA => []
  | .hostTickB => []
  | .hostAllocRom _ => []
  | .hostWriteRom _ _ => []
  | .hostMute _ => []
  | .alg0_0 => [⟨.al, [(5, 0, 0)]⟩]
  | .alg0_1 => [⟨.al, [(5, 0, 1)]⟩]
  | .alg0_2 => [⟨.al, [(5, 0, 2)]⟩]
  | .alg0_3 => [⟨.al, [(5, 0, 3)]⟩]
  | .alg0_4 => [⟨.al, [(5, 0, 4)]⟩]
  | .alg0_5 => [⟨.al, [(5, 0, 5)]⟩]
  | .alg0_6 => [⟨.al, [(5, 0, 6)]⟩]
  | .alg0_7 => [⟨.al, [(5, 0, 7)]⟩]
  | .alg0_8 => [⟨.al, [(5, 0, 8)]⟩]
  | .alg0_9 => [⟨.al, [(5, 0, 9)]⟩]
  | .alg0_10 => [⟨.al, [(5, 0, 10)]⟩]
  | .alg0_11 => [⟨.al, [(5, 0, 11)]⟩]
  | .alg0_12 => [⟨.al, [(5, 0, 12)]⟩]
  | .alg0_13 => [⟨.al, [(5, 0, 13)]⟩]
  | .alg0_14 => [⟨.al, [(5, 0, 14)]⟩]
  | .alg0_15 => [⟨.al, [(5, 0, 15)]⟩]
  | .alg1_0 _ => [⟨.al, [(1, 0, 0), (5, 4, 1)]⟩]
  | .alg1_1 _ => [⟨.al, [(1, 0, 1), (5, 4, 1)]⟩]
  | .alg1_2 _ => [⟨.al, [(1, 0, 2), (5, 4, 1)]⟩]
  | .alg1_3 _ => [⟨.al, [(1, 0, 3), (5, 4, 1)]⟩]
  | .alg2_0 _ => [⟨.al, [(2, 0, 0), (5, 4, 2)]⟩]
  | .alg2_1 _ => [⟨.al, [(2, 0, 1), (5, 4, 2)]⟩]
  | .alg2_2 _ => [⟨.al, [(2, 0, 2), (5, 4, 2)]⟩]
  | .alg2_3 _ => [⟨.al, [(2, 0, 3), (5, 4, 2)]⟩]
  | .alg2_4 _ => [⟨.al, [(2, 0, 4), (5, 4, 2)]⟩]
  | .alg2_5 _ => [⟨.al, [(2, 0, 5), (5, 4, 2)]⟩]
  | .alg2_6 _ => [⟨.al, [(2, 0, 6), (5, 4, 2)]⟩]
  | .alg2_7 _ => [⟨.al, [(2, 0, 7), (5, 4, 2)]⟩]
  | .sync3 _ => [⟨.al, [(5, 4, 3)]⟩]

/-- The word of an instruction fits one of its rows; a host operation has no word. -/
def EncodesToItsRow.Statement (i : Instr) : Prop :=
  i.wf = true → if rowsOf i = [] then (encode i).word = none else ∃ row ∈ rowsOf i, Fits (encode i) row

/-- The number of a word from its fields (R101). -/
theorem joinWord_toNat (p : Port) (r n : Nibble) (d : Byte) :
    (joinWord p r n d).toNat = p.toNat * 65536 + r.toNat * 4096 + n.toNat * 256 + d.toNat := by
  have hr := r.isLt
  have hn := n.isLt
  have := d.isLt
  unfold joinWord
  simp only [BitVec.toNat_append]
  rw [← Nat.shiftLeft_add_eq_or_of_lt this, ← Nat.shiftLeft_add_eq_or_of_lt hn, ← Nat.shiftLeft_add_eq_or_of_lt hr]
  simp only [Nat.shiftLeft_eq]
  omega

/-- The latch and unused rows fix the port alone. -/
theorem fits_latch (role : PortRole) (d : Byte) (row : Row) (h : row = ⟨.pw, [(19, 16, role.port.toNat)]⟩) :
    Fits (latchWord role d) row := by
  subst h
  refine ⟨rfl, _, rfl, ?_⟩
  have := role.port.isLt
  have := d.isLt
  simp only [List.mem_singleton, forall_eq, joinWord_toNat]
  norm_num
  omega

/-- The FM rows fix bit 19, the low bit of the port and the parameter (R107). -/
theorem fits_fm (bank : BitVec 2) (r n : Nibble) (d : Byte) (row : Row)
    (h : row = ⟨.pw, [(16, 12, 16 + r.toNat), (19, 19, 0)]⟩) : Fits (fmWord bank r n d) row := by
  subst h
  refine ⟨rfl, _, rfl, ?_⟩
  have := bank.isLt
  have := r.isLt
  have := n.isLt
  have := d.isLt
  have hp : (PortRole.fmData bank).port.toNat = 2 * bank.toNat + 1 := by
    revert bank; decide
  simp only [List.mem_cons, List.not_mem_nil, or_false, forall_eq_or_imp, forall_eq, joinWord_toNat, hp]
  norm_num
  omega

/-- The rows of an FM data write that an invalid selector turns away (R112, R114). -/
theorem fits_fmInvalid (bank : BitVec 2) (r n : Nibble) (d : Byte) (hn : n.toNat % 4 = 3) :
    Fits (fmWord bank r n d) ⟨.pw, [(9, 8, 3), (16, 16, 1), (19, 19, 0)]⟩ := by
  refine ⟨rfl, _, rfl, ?_⟩
  have := bank.isLt
  have := r.isLt
  have := n.isLt
  have := d.isLt
  have hp : (PortRole.fmData bank).port.toNat = 2 * bank.toNat + 1 := by
    revert bank; decide
  simp only [List.mem_cons, List.not_mem_nil, or_false, forall_eq_or_imp, forall_eq, joinWord_toNat, hp]
  norm_num
  omega

/-- A row of port 9 or 0xD that fixes the bits from a low bit up. -/
theorem fits_high (p : Port) (r n : Nibble) (d : Byte) (lo v : Nat) (hlo : lo ≤ 19)
    (h : (p.toNat * 65536 + r.toNat * 4096 + n.toNat * 256 + d.toNat) / 2 ^ lo = v) :
    Fits (.pw (joinWord p r n d)) ⟨.pw, [(19, lo, v)]⟩ := by
  refine ⟨rfl, _, rfl, ?_⟩
  have hw := (joinWord p r n d).isLt
  simp only [List.mem_singleton, forall_eq]
  rw [joinWord_toNat] at hw ⊢
  rw [h, Nat.mod_eq_of_lt]
  rw [← h, Nat.div_lt_iff_lt_mul (Nat.two_pow_pos lo), ← Nat.pow_add, show 19 + 1 - lo + lo = 20 by omega]
  exact hw

/-- A row of port 9 that fixes the parameter (R109). -/
theorem fits_pcm (r n : Nibble) (d : Byte) : Fits (pcmWord r n d) ⟨.pw, [(19, 12, 144 + r.toNat)]⟩ := by
  have := n.isLt
  have := d.isLt
  exact fits_high _ r n d 12 _ (by omega) (by show (9 * 65536 + _ + _ + _) / 2 ^ 12 = _; omega)

/-- A row of port 0xD that fixes the parameter, or the whole sub-address (R110). -/
theorem fits_tim (r n : Nibble) (d : Byte) :
    Fits (timWord r n d) ⟨.pw, [(19, 12, 208 + r.toNat)]⟩ ∧
      Fits (timWord r n d) ⟨.pw, [(19, 8, 3328 + r.toNat * 16 + n.toNat)]⟩ := by
  have := n.isLt
  have := d.isLt
  exact ⟨fits_high _ r n d 12 _ (by omega) (by show (13 * 65536 + _ + _ + _) / 2 ^ 12 = _; omega),
    fits_high _ r n d 8 _ (by omega) (by show (13 * 65536 + _ + _ + _) / 2 ^ 8 = _; omega)⟩

/-- An instruction with one row. -/
theorem encodes_one {i : Instr} (row : Row) (hr : rowsOf i = [row]) (h : i.wf = true → Fits (encode i) row) :
    EncodesToItsRow.Statement i := by
  intro hw
  rw [hr, if_neg (by simp)]
  exact ⟨row, List.mem_singleton_self _, h hw⟩


theorem EncodesToItsRow.portLatchFm0 (data : Byte) : EncodesToItsRow.Statement (.portLatchFm0 data) :=
  encodes_one _ rfl fun _ => fits_latch (.fmLatch 0#2) data _ rfl

theorem EncodesToItsRow.portLatchFm1 (data : Byte) : EncodesToItsRow.Statement (.portLatchFm1 data) :=
  encodes_one _ rfl fun _ => fits_latch (.fmLatch 1#2) data _ rfl

theorem EncodesToItsRow.portLatchFm2 (data : Byte) : EncodesToItsRow.Statement (.portLatchFm2 data) :=
  encodes_one _ rfl fun _ => fits_latch (.fmLatch 2#2) data _ rfl

theorem EncodesToItsRow.portLatchFm3 (data : Byte) : EncodesToItsRow.Statement (.portLatchFm3 data) :=
  encodes_one _ rfl fun _ => fits_latch (.fmLatch 3#2) data _ rfl

theorem EncodesToItsRow.portLatchPcm (data : Byte) : EncodesToItsRow.Statement (.portLatchPcm data) :=
  encodes_one _ rfl fun _ => fits_latch (.pcmLatch) data _ rfl

theorem EncodesToItsRow.portLatchTim (data : Byte) : EncodesToItsRow.Statement (.portLatchTim data) :=
  encodes_one _ rfl fun _ => fits_latch (.timLatch) data _ rfl

theorem EncodesToItsRow.portUnusedA (data : Byte) : EncodesToItsRow.Statement (.portUnusedA data) :=
  encodes_one _ rfl fun _ => fits_latch (.unusedA) data _ rfl

theorem EncodesToItsRow.portUnusedB (data : Byte) : EncodesToItsRow.Statement (.portUnusedB data) :=
  encodes_one _ rfl fun _ => fits_latch (.unusedB) data _ rfl

theorem EncodesToItsRow.portUnusedE (data : Byte) : EncodesToItsRow.Statement (.portUnusedE data) :=
  encodes_one _ rfl fun _ => fits_latch (.unusedE) data _ rfl

theorem EncodesToItsRow.portUnusedF (data : Byte) : EncodesToItsRow.Statement (.portUnusedF data) :=
  encodes_one _ rfl fun _ => fits_latch (.unusedF) data _ rfl

theorem EncodesToItsRow.fmInvalidSel (bank : BitVec 2) (r : Nibble) (sel : Nibble) (data : Byte) : EncodesToItsRow.Statement (.fmInvalidSel bank r sel data) :=
  encodes_one _ rfl fun h => fits_fmInvalid bank r sel data (by simpa [Instr.wf, selectorValid] using h)

theorem EncodesToItsRow.fmKey (bank : BitVec 2) (sel : Nibble) (data : Byte) : EncodesToItsRow.Statement (.fmKey bank sel data) :=
  encodes_one _ rfl fun _ => fits_fm bank _ sel data _ rfl

theorem EncodesToItsRow.fmLfofreq (bank : BitVec 2) (sel : Nibble) (data : Byte) : EncodesToItsRow.Statement (.fmLfofreq bank sel data) :=
  encodes_one _ rfl fun _ => fits_fm bank _ sel data _ rfl

theorem EncodesToItsRow.fmLfowave (bank : BitVec 2) (sel : Nibble) (data : Byte) : EncodesToItsRow.Statement (.fmLfowave bank sel data) :=
  encodes_one _ rfl fun _ => fits_fm bank _ sel data _ rfl

theorem EncodesToItsRow.fmMuldt (bank : BitVec 2) (sel : Nibble) (data : Byte) : EncodesToItsRow.Statement (.fmMuldt bank sel data) :=
  encodes_one _ rfl fun _ => fits_fm bank _ sel data _ rfl

theorem EncodesToItsRow.fmTl (bank : BitVec 2) (sel : Nibble) (data : Byte) : EncodesToItsRow.Statement (.fmTl bank sel data) :=
  encodes_one _ rfl fun _ => fits_fm bank _ sel data _ rfl

theorem EncodesToItsRow.fmAr (bank : BitVec 2) (sel : Nibble) (data : Byte) : EncodesToItsRow.Statement (.fmAr bank sel data) :=
  encodes_one _ rfl fun _ => fits_fm bank _ sel data _ rfl

theorem EncodesToItsRow.fmD1r (bank : BitVec 2) (sel : Nibble) (data : Byte) : EncodesToItsRow.Statement (.fmD1r bank sel data) :=
  encodes_one _ rfl fun _ => fits_fm bank _ sel data _ rfl

theorem EncodesToItsRow.fmD2r (bank : BitVec 2) (sel : Nibble) (data : Byte) : EncodesToItsRow.Statement (.fmD2r bank sel data) :=
  encodes_one _ rfl fun _ => fits_fm bank _ sel data _ rfl

theorem EncodesToItsRow.fmRrd1l (bank : BitVec 2) (sel : Nibble) (data : Byte) : EncodesToItsRow.Statement (.fmRrd1l bank sel data) :=
  encodes_one _ rfl fun _ => fits_fm bank _ sel data _ rfl

theorem EncodesToItsRow.fmFnslo (bank : BitVec 2) (sel : Nibble) (data : Byte) : EncodesToItsRow.Statement (.fmFnslo bank sel data) :=
  encodes_one _ rfl fun _ => fits_fm bank _ sel data _ rfl

theorem EncodesToItsRow.fmFnshi (bank : BitVec 2) (sel : Nibble) (data : Byte) : EncodesToItsRow.Statement (.fmFnshi bank sel data) :=
  encodes_one _ rfl fun _ => fits_fm bank _ sel data _ rfl

theorem EncodesToItsRow.fmWave (bank : BitVec 2) (sel : Nibble) (data : Byte) : EncodesToItsRow.Statement (.fmWave bank sel data) :=
  encodes_one _ rfl fun _ => fits_fm bank _ sel data _ rfl

theorem EncodesToItsRow.fmAlg (bank : BitVec 2) (sel : Nibble) (data : Byte) : EncodesToItsRow.Statement (.fmAlg bank sel data) :=
  encodes_one _ rfl fun _ => fits_fm bank _ sel data _ rfl

theorem EncodesToItsRow.fmCh01 (bank : BitVec 2) (sel : Nibble) (data : Byte) : EncodesToItsRow.Statement (.fmCh01 bank sel data) :=
  encodes_one _ rfl fun _ => fits_fm bank _ sel data _ rfl

theorem EncodesToItsRow.fmCh23 (bank : BitVec 2) (sel : Nibble) (data : Byte) : EncodesToItsRow.Statement (.fmCh23 bank sel data) :=
  encodes_one _ rfl fun _ => fits_fm bank _ sel data _ rfl

theorem EncodesToItsRow.fmReserved (bank : BitVec 2) (sel : Nibble) (data : Byte) : EncodesToItsRow.Statement (.fmReserved bank sel data) :=
  encodes_one _ rfl fun _ => fits_fm bank _ sel data _ rfl

theorem EncodesToItsRow.pcmInvalidSel (r : Nibble) (sel : Nibble) (data : Byte) : EncodesToItsRow.Statement (.pcmInvalidSel r sel data) := by
  refine encodes_one _ rfl fun h => ?_
  have hn : sel.toNat % 4 = 3 := by simpa [Instr.wf, selectorValid] using h
  refine ⟨rfl, _, rfl, ?_⟩
  have := r.isLt
  have := sel.isLt
  have := data.isLt
  have hp : PortRole.pcmData.port.toNat = 9 := rfl
  simp only [List.mem_cons, List.not_mem_nil, or_false, forall_eq_or_imp, forall_eq, joinWord_toNat, hp]
  norm_num
  omega

theorem EncodesToItsRow.pcmStart0 (sel : Nibble) (data : Byte) : EncodesToItsRow.Statement (.pcmStart0 sel data) :=
  encodes_one _ rfl fun _ => fits_pcm _ sel data

theorem EncodesToItsRow.pcmStart1 (sel : Nibble) (data : Byte) : EncodesToItsRow.Statement (.pcmStart1 sel data) :=
  encodes_one _ rfl fun _ => fits_pcm _ sel data

theorem EncodesToItsRow.pcmStart2 (sel : Nibble) (data : Byte) : EncodesToItsRow.Statement (.pcmStart2 sel data) :=
  encodes_one _ rfl fun _ => fits_pcm _ sel data

theorem EncodesToItsRow.pcmEnd0 (sel : Nibble) (data : Byte) : EncodesToItsRow.Statement (.pcmEnd0 sel data) :=
  encodes_one _ rfl fun _ => fits_pcm _ sel data

theorem EncodesToItsRow.pcmEnd1 (sel : Nibble) (data : Byte) : EncodesToItsRow.Statement (.pcmEnd1 sel data) :=
  encodes_one _ rfl fun _ => fits_pcm _ sel data

theorem EncodesToItsRow.pcmEnd2 (sel : Nibble) (data : Byte) : EncodesToItsRow.Statement (.pcmEnd2 sel data) :=
  encodes_one _ rfl fun _ => fits_pcm _ sel data

theorem EncodesToItsRow.pcmLoop0 (sel : Nibble) (data : Byte) : EncodesToItsRow.Statement (.pcmLoop0 sel data) :=
  encodes_one _ rfl fun _ => fits_pcm _ sel data

theorem EncodesToItsRow.pcmLoop1 (sel : Nibble) (data : Byte) : EncodesToItsRow.Statement (.pcmLoop1 sel data) :=
  encodes_one _ rfl fun _ => fits_pcm _ sel data

theorem EncodesToItsRow.pcmLoop2 (sel : Nibble) (data : Byte) : EncodesToItsRow.Statement (.pcmLoop2 sel data) :=
  encodes_one _ rfl fun _ => fits_pcm _ sel data

theorem EncodesToItsRow.pcmFormat (sel : Nibble) (data : Byte) : EncodesToItsRow.Statement (.pcmFormat sel data) :=
  encodes_one _ rfl fun _ => fits_pcm _ sel data

theorem EncodesToItsRow.pcmReserved (r : Nibble) (sel : Nibble) (data : Byte) : EncodesToItsRow.Statement (.pcmReserved r sel data) := by
  intro h
  rw [if_neg (by simp [rowsOf])]
  have hr : 10 ≤ r.toNat := by simp only [Instr.wf, Bool.and_eq_true, decide_eq_true_eq] at h; exact h.1
  have := r.isLt
  have := sel.isLt
  have := data.isLt
  by_cases hr' : r.toNat < 12
  · exact ⟨_, .head _, fits_high _ r sel data 13 _ (by omega) (by show (9 * 65536 + _ + _ + _) / 2 ^ 13 = _; omega)⟩
  · exact ⟨_, .tail _ (.head _), fits_high _ r sel data 14 _ (by omega) (by show (9 * 65536 + _ + _ + _) / 2 ^ 14 = _; omega)⟩

theorem EncodesToItsRow.grpSync (sel : Nibble) (data : Byte) : EncodesToItsRow.Statement (.grpSync sel data) :=
  encodes_one _ rfl fun _ => (fits_tim _ sel data).1

theorem EncodesToItsRow.timAHi (data : Byte) : EncodesToItsRow.Statement (.timAHi data) :=
  encodes_one _ rfl fun _ => (fits_tim _ _ data).2

theorem EncodesToItsRow.timALo (data : Byte) : EncodesToItsRow.Statement (.timALo data) :=
  encodes_one _ rfl fun _ => (fits_tim _ _ data).2

theorem EncodesToItsRow.timB (data : Byte) : EncodesToItsRow.Statement (.timB data) :=
  encodes_one _ rfl fun _ => (fits_tim _ _ data).2

theorem EncodesToItsRow.timCtrl (data : Byte) : EncodesToItsRow.Statement (.timCtrl data) :=
  encodes_one _ rfl fun _ => (fits_tim _ _ data).2

theorem EncodesToItsRow.extAddr0 (data : Byte) : EncodesToItsRow.Statement (.extAddr0 data) :=
  encodes_one _ rfl fun _ => (fits_tim _ _ data).2

theorem EncodesToItsRow.extAddr1 (data : Byte) : EncodesToItsRow.Statement (.extAddr1 data) :=
  encodes_one _ rfl fun _ => (fits_tim _ _ data).2

theorem EncodesToItsRow.extAddr2 (data : Byte) : EncodesToItsRow.Statement (.extAddr2 data) :=
  encodes_one _ rfl fun _ => (fits_tim _ _ data).2

theorem EncodesToItsRow.extData (data : Byte) : EncodesToItsRow.Statement (.extData data) :=
  encodes_one _ rfl fun _ => (fits_tim _ _ data).2

theorem EncodesToItsRow.timReserved (sub : Byte) (data : Byte) : EncodesToItsRow.Statement (.timReserved sub data) := by
  intro h
  rw [if_neg (by simp [rowsOf])]
  have hs : 0x18 ≤ sub.toNat := by simpa only [Instr.wf, decide_eq_true_eq] using h
  have := data.isLt
  have := sub.isLt
  have h1 : (sub.extractLsb' 4 4).toNat = sub.toNat / 16 := by
    rw [BitVec.extractLsb'_toNat, Nat.shiftRight_eq_div_pow]; omega
  have h0 : (sub.extractLsb' 0 4).toNat = sub.toNat % 16 := by
    rw [BitVec.extractLsb'_toNat, Nat.shiftRight_eq_div_pow]; omega
  have hw : ∀ lo v, lo ≤ 19 → (13 * 65536 + sub.toNat * 256 + data.toNat) / 2 ^ lo = v →
      Fits (encode (.timReserved sub data)) ⟨.pw, [(19, lo, v)]⟩ := fun lo v hlo hv =>
    fits_high _ _ _ data lo v hlo (by rw [← hv, h0, h1]; congr 1; show 13 * 65536 + _ + _ + _ = _; omega)
  by_cases h2 : sub.toNat < 32
  · exact ⟨_, .head _, hw 11 _ (by omega) (by omega)⟩
  · by_cases h4 : sub.toNat < 64
    · exact ⟨_, .tail _ (.head _), hw 13 _ (by omega) (by omega)⟩
    · by_cases h8 : sub.toNat < 128
      · exact ⟨_, .tail _ (.tail _ (.head _)), hw 14 _ (by omega) (by omega)⟩
      · exact ⟨_, .tail _ (.tail _ (.tail _ (.head _))), hw 15 _ (by omega) (by omega)⟩

theorem EncodesToItsRow.readStatus0 : EncodesToItsRow.Statement .readStatus0 :=
  encodes_one _ rfl fun _ => ⟨rfl, _, rfl, by decide⟩

theorem EncodesToItsRow.readStatus1 : EncodesToItsRow.Statement .readStatus1 :=
  encodes_one _ rfl fun _ => ⟨rfl, _, rfl, by decide⟩

theorem EncodesToItsRow.readExtdata : EncodesToItsRow.Statement .readExtdata :=
  encodes_one _ rfl fun _ => ⟨rfl, _, rfl, by decide⟩

theorem EncodesToItsRow.readUndoc (port : Port) : EncodesToItsRow.Statement (.readUndoc port) := by
  intro h
  rw [if_neg (by simp [rowsOf])]
  have hp : 3 ≤ port.toNat := by simpa only [Instr.wf, decide_eq_true_eq] using h
  have := port.isLt
  have hw : ∀ hi lo v, port.toNat / 2 ^ lo % 2 ^ (hi + 1 - lo) = v →
      Fits (encode (.readUndoc port)) ⟨.pr, [(hi, lo, v)]⟩ := fun hi lo v hv =>
    ⟨rfl, _, rfl, by simpa only [List.mem_singleton, forall_eq] using hv⟩
  by_cases h3 : port.toNat = 3
  · exact ⟨_, .head _, hw 3 0 3 (by omega)⟩
  · by_cases h8 : port.toNat < 8
    · exact ⟨_, .tail _ (.head _), hw 3 2 1 (by omega)⟩
    · exact ⟨_, .tail _ (.tail _ (.head _)), hw 3 3 1 (by omega)⟩

theorem EncodesToItsRow.hostUpdate (n : Nat) : EncodesToItsRow.Statement (.hostUpdate n) := fun _ => rfl

theorem EncodesToItsRow.hostReset : EncodesToItsRow.Statement .hostReset := fun _ => rfl

theorem EncodesToItsRow.hostStart (clock : PosFrac) : EncodesToItsRow.Statement (.hostStart clock) := fun _ => rfl

theorem EncodesToItsRow.hostTickA : EncodesToItsRow.Statement .hostTickA := fun _ => rfl

theorem EncodesToItsRow.hostTickB : EncodesToItsRow.Statement .hostTickB := fun _ => rfl

theorem EncodesToItsRow.hostAllocRom (size : Nat) : EncodesToItsRow.Statement (.hostAllocRom size) := fun _ => rfl

theorem EncodesToItsRow.hostWriteRom (offset : Nat) (bytes : List Byte) : EncodesToItsRow.Statement (.hostWriteRom offset bytes) :=
  fun _ => rfl

theorem EncodesToItsRow.hostMute (mask : BitVec 12) : EncodesToItsRow.Statement (.hostMute mask) := fun _ => rfl

theorem EncodesToItsRow.alg0_0 : EncodesToItsRow.Statement .alg0_0 :=
  encodes_one _ rfl fun _ => ⟨rfl, _, rfl, by decide⟩

theorem EncodesToItsRow.alg0_1 : EncodesToItsRow.Statement .alg0_1 :=
  encodes_one _ rfl fun _ => ⟨rfl, _, rfl, by decide⟩

theorem EncodesToItsRow.alg0_2 : EncodesToItsRow.Statement .alg0_2 :=
  encodes_one _ rfl fun _ => ⟨rfl, _, rfl, by decide⟩

theorem EncodesToItsRow.alg0_3 : EncodesToItsRow.Statement .alg0_3 :=
  encodes_one _ rfl fun _ => ⟨rfl, _, rfl, by decide⟩

theorem EncodesToItsRow.alg0_4 : EncodesToItsRow.Statement .alg0_4 :=
  encodes_one _ rfl fun _ => ⟨rfl, _, rfl, by decide⟩

theorem EncodesToItsRow.alg0_5 : EncodesToItsRow.Statement .alg0_5 :=
  encodes_one _ rfl fun _ => ⟨rfl, _, rfl, by decide⟩

theorem EncodesToItsRow.alg0_6 : EncodesToItsRow.Statement .alg0_6 :=
  encodes_one _ rfl fun _ => ⟨rfl, _, rfl, by decide⟩

theorem EncodesToItsRow.alg0_7 : EncodesToItsRow.Statement .alg0_7 :=
  encodes_one _ rfl fun _ => ⟨rfl, _, rfl, by decide⟩

theorem EncodesToItsRow.alg0_8 : EncodesToItsRow.Statement .alg0_8 :=
  encodes_one _ rfl fun _ => ⟨rfl, _, rfl, by decide⟩

theorem EncodesToItsRow.alg0_9 : EncodesToItsRow.Statement .alg0_9 :=
  encodes_one _ rfl fun _ => ⟨rfl, _, rfl, by decide⟩

theorem EncodesToItsRow.alg0_10 : EncodesToItsRow.Statement .alg0_10 :=
  encodes_one _ rfl fun _ => ⟨rfl, _, rfl, by decide⟩

theorem EncodesToItsRow.alg0_11 : EncodesToItsRow.Statement .alg0_11 :=
  encodes_one _ rfl fun _ => ⟨rfl, _, rfl, by decide⟩

theorem EncodesToItsRow.alg0_12 : EncodesToItsRow.Statement .alg0_12 :=
  encodes_one _ rfl fun _ => ⟨rfl, _, rfl, by decide⟩

theorem EncodesToItsRow.alg0_13 : EncodesToItsRow.Statement .alg0_13 :=
  encodes_one _ rfl fun _ => ⟨rfl, _, rfl, by decide⟩

theorem EncodesToItsRow.alg0_14 : EncodesToItsRow.Statement .alg0_14 :=
  encodes_one _ rfl fun _ => ⟨rfl, _, rfl, by decide⟩

theorem EncodesToItsRow.alg0_15 : EncodesToItsRow.Statement .alg0_15 :=
  encodes_one _ rfl fun _ => ⟨rfl, _, rfl, by decide⟩

theorem EncodesToItsRow.alg1_0 (hi : BitVec 2) : EncodesToItsRow.Statement (.alg1_0 hi) :=
  encodes_one _ rfl fun _ => ⟨rfl, _, rfl, by revert hi; decide⟩

theorem EncodesToItsRow.alg1_1 (hi : BitVec 2) : EncodesToItsRow.Statement (.alg1_1 hi) :=
  encodes_one _ rfl fun _ => ⟨rfl, _, rfl, by revert hi; decide⟩

theorem EncodesToItsRow.alg1_2 (hi : BitVec 2) : EncodesToItsRow.Statement (.alg1_2 hi) :=
  encodes_one _ rfl fun _ => ⟨rfl, _, rfl, by revert hi; decide⟩

theorem EncodesToItsRow.alg1_3 (hi : BitVec 2) : EncodesToItsRow.Statement (.alg1_3 hi) :=
  encodes_one _ rfl fun _ => ⟨rfl, _, rfl, by revert hi; decide⟩

theorem EncodesToItsRow.alg2_0 (hi : BitVec 1) : EncodesToItsRow.Statement (.alg2_0 hi) :=
  encodes_one _ rfl fun _ => ⟨rfl, _, rfl, by revert hi; decide⟩

theorem EncodesToItsRow.alg2_1 (hi : BitVec 1) : EncodesToItsRow.Statement (.alg2_1 hi) :=
  encodes_one _ rfl fun _ => ⟨rfl, _, rfl, by revert hi; decide⟩

theorem EncodesToItsRow.alg2_2 (hi : BitVec 1) : EncodesToItsRow.Statement (.alg2_2 hi) :=
  encodes_one _ rfl fun _ => ⟨rfl, _, rfl, by revert hi; decide⟩

theorem EncodesToItsRow.alg2_3 (hi : BitVec 1) : EncodesToItsRow.Statement (.alg2_3 hi) :=
  encodes_one _ rfl fun _ => ⟨rfl, _, rfl, by revert hi; decide⟩

theorem EncodesToItsRow.alg2_4 (hi : BitVec 1) : EncodesToItsRow.Statement (.alg2_4 hi) :=
  encodes_one _ rfl fun _ => ⟨rfl, _, rfl, by revert hi; decide⟩

theorem EncodesToItsRow.alg2_5 (hi : BitVec 1) : EncodesToItsRow.Statement (.alg2_5 hi) :=
  encodes_one _ rfl fun _ => ⟨rfl, _, rfl, by revert hi; decide⟩

theorem EncodesToItsRow.alg2_6 (hi : BitVec 1) : EncodesToItsRow.Statement (.alg2_6 hi) :=
  encodes_one _ rfl fun _ => ⟨rfl, _, rfl, by revert hi; decide⟩

theorem EncodesToItsRow.alg2_7 (hi : BitVec 1) : EncodesToItsRow.Statement (.alg2_7 hi) :=
  encodes_one _ rfl fun _ => ⟨rfl, _, rfl, by revert hi; decide⟩

theorem EncodesToItsRow.sync3 (alg : BitVec 4) : EncodesToItsRow.Statement (.sync3 alg) :=
  encodes_one _ rfl fun _ => ⟨rfl, _, rfl, by revert alg; decide⟩

end Sys2Proof.Laws
end

