-- ==== Sys2Proof/Tests/Slice0.lean ====
section
/-! SUPPORT. The model's own tests: ill-formed terms refused by each check, words written out from the encodings of the
spec, one small step per instruction with results taken from spec/95_test_vectors.md or worked by hand from the rules, and
a witness for the hypotheses of each statement. -/

namespace Sys2Proof.Tests

open Sys2Proof Sys2Proof.Machine

-- The tests are checked one after the other: checked at once, their evaluations ask for more threads than there is memory.
set_option Elab.async false

/-! ### Helpers -/

/-- The test configuration TC (spec/95_test_vectors.md part 1). -/
def tc : Config :=
  { Config.default with
    lutAR := [(60, ⟨0, 1⟩), (61, ⟨0, 1⟩), (62, ⟨0, 1⟩), (63, ⟨0, 1⟩)]
    lutDC := [(63, ⟨254, 0⟩)]
    lutLFO := [(0, ⟨0, 0⟩), (1, ⟨44100, 255⟩)] }

/-- The state after reset, with the configuration TC. -/
def s0 : State := { State.reset with config := tc }

/-- What a test looks at after an instruction, or nothing when it stops. -/
def after {α : Type} (i : Instr) (s : State) (f : State → α) : Option α :=
  match exec i s with
  | .next t => some (f t)
  | .fault _ => none
  | .refused _ => none

/-- A state with one group in a sync mode. -/
def inSync (g : GroupIx) (y : BitVec 2) : State := s0.setGroup g { s0.group g with sync := y }

/-- Group 0 in sync 3: nothing mirrors (spec/95_test_vectors.md 3.2). -/
def s3 : State := inSync 0 3#2

/-- An active slot at full volume in DECAY2 with its pointer at a table entry, block 4, F-number 0x400, multiple 1. -/
def sounding (entry : Nat) : Slot :=
  { Slot.reset with
    active := true, volume := 255 * 65536, envState := .decay2, block := 4#4, fns := 0x400#12, multiple := 1#4
    stepptr := BitVec.ofNat 64 (entry * 65536) }

/-- Group 0 with four sine operators at the entries 128, 10, 33, 77 (banks 0 to 3), feedback 1 on bank 0, one sample to
render. -/
def fourSines : State :=
  { (((s0.setSlot 0 { sounding 128 with feedback := 1#3 }).setSlot 12 (sounding 10)).setSlot 24 (sounding 33)).setSlot 36
      (sounding 77) with mixbuf := [Frame.zero], accbuf := [Frame.zero] }

/-- Channel 0 of the first sample, and the feedback word of the leader. -/
def heard (s : State) : Option Int × Int := (s.mixbuf[0]?.map fun f => f.ch0.toInt, (s.slot 0).fbMod1.toInt)

/-! ### Well-formedness: one ill-formed term for each check -/

theorem test_wf_fm_selector : (Instr.fmKey 0#2 3#4 1#8).wf = false ∧ (Instr.fmReserved 3#2 15#4 0#8).wf = false := by decide
theorem test_wf_fm_parameters :
    ([.fmLfofreq 0#2 3#4 0#8, .fmLfowave 0#2 7#4 0#8, .fmMuldt 0#2 11#4 0#8, .fmTl 0#2 15#4 0#8, .fmAr 1#2 3#4 0#8,
      .fmD1r 1#2 7#4 0#8, .fmD2r 1#2 11#4 0#8, .fmRrd1l 1#2 15#4 0#8, .fmFnslo 2#2 3#4 0#8, .fmFnshi 2#2 7#4 0#8,
      .fmWave 2#2 11#4 0#8, .fmAlg 2#2 15#4 0#8, .fmCh01 3#2 3#4 0#8, .fmCh23 3#2 7#4 0#8] : List Instr).all
      (fun i => !i.wf) = true := by decide
theorem test_wf_fm_invalid_needs_an_invalid_selector : (Instr.fmInvalidSel 0#2 0#4 2#4 0#8).wf = false := by decide
theorem test_wf_pcm_selector :
    ([.pcmStart0 3#4 0#8, .pcmStart1 7#4 0#8, .pcmStart2 11#4 0#8, .pcmEnd0 15#4 0#8, .pcmEnd1 3#4 0#8, .pcmEnd2 7#4 0#8,
      .pcmLoop0 11#4 0#8, .pcmLoop1 15#4 0#8, .pcmLoop2 3#4 0#8, .pcmFormat 7#4 0#8, .pcmReserved 10#4 11#4 0#8] :
        List Instr).all (fun i => !i.wf) = true := by decide
theorem test_wf_pcm_invalid_needs_an_invalid_selector : (Instr.pcmInvalidSel 0#4 4#4 0#8).wf = false := by decide
theorem test_wf_pcm_reserved_parameter : (Instr.pcmReserved 9#4 0#4 0#8).wf = false := by decide
theorem test_wf_timer_reserved_address : (Instr.timReserved 0x17#8 0#8).wf = false := by decide
theorem test_wf_undocumented_port : (Instr.readUndoc 2#4).wf = false := by decide

/-! ### Decoding: the words are written out from the encodings of R101, R103 and R105 -/

theorem test_decode_latch_and_unused_ports :
    decodeTableWord 20 0b00000001000100010010 = some (.portLatchFm0 0x12#8) ∧
      decodeTableWord 20 0b00100010001000010011 = some (.portLatchFm1 0x13#8) ∧
      decodeTableWord 20 0b01000011001100010100 = some (.portLatchFm2 0x14#8) ∧
      decodeTableWord 20 0b01100100010000010101 = some (.portLatchFm3 0x15#8) ∧
      decodeTableWord 20 0b10000101010100010110 = some (.portLatchPcm 0x16#8) ∧
      decodeTableWord 20 0b11000110011000010111 = some (.portLatchTim 0x17#8) ∧
      decodeTableWord 20 0b10100111011100011000 = some (.portUnusedA 0x18#8) ∧
      decodeTableWord 20 0b10111000100000011001 = some (.portUnusedB 0x19#8) ∧
      decodeTableWord 20 0b11101001100100011010 = some (.portUnusedE 0x1A#8) ∧
      decodeTableWord 20 0b11111010101000011011 = some (.portUnusedF 0x1B#8) := by decide

theorem test_decode_fm_parameters :
    decodeTableWord 20 0b00010000000000110101 = some (.fmKey 0#2 0#4 0x35#8) ∧
      decodeTableWord 20 0b00110001000101000010 = some (.fmLfofreq 1#2 1#4 0x42#8) ∧
      decodeTableWord 20 0b01010010001001001111 = some (.fmLfowave 2#2 2#4 0x4F#8) ∧
      decodeTableWord 20 0b01110011010001011100 = some (.fmMuldt 3#2 4#4 0x5C#8) ∧
      decodeTableWord 20 0b00010100010101101001 = some (.fmTl 0#2 5#4 0x69#8) ∧
      decodeTableWord 20 0b00110101011001110110 = some (.fmAr 1#2 6#4 0x76#8) ∧
      decodeTableWord 20 0b01010110100010000011 = some (.fmD1r 2#2 8#4 0x83#8) ∧
      decodeTableWord 20 0b01110111100110010000 = some (.fmD2r 3#2 9#4 0x90#8) ∧
      decodeTableWord 20 0b00011000101010011101 = some (.fmRrd1l 0#2 10#4 0x9D#8) ∧
      decodeTableWord 20 0b00111001110010101010 = some (.fmFnslo 1#2 12#4 0xAA#8) ∧
      decodeTableWord 20 0b01011010110110110111 = some (.fmFnshi 2#2 13#4 0xB7#8) ∧
      decodeTableWord 20 0b01111011111011000100 = some (.fmWave 3#2 14#4 0xC4#8) ∧
      decodeTableWord 20 0b00011100000011010001 = some (.fmAlg 0#2 0#4 0xD1#8) ∧
      decodeTableWord 20 0b00111101000111011110 = some (.fmCh01 1#2 1#4 0xDE#8) ∧
      decodeTableWord 20 0b01011110001011101011 = some (.fmCh23 2#2 2#4 0xEB#8) ∧
      decodeTableWord 20 0b01111111010011111000 = some (.fmReserved 3#2 4#4 0xF8#8) ∧
      decodeTableWord 20 0b01111111101110100101 = some (.fmInvalidSel 3#2 15#4 11#4 0xA5#8) := by decide

theorem test_decode_pcm_parameters :
    decodeTableWord 20 0b10010000010010000001 = some (.pcmStart0 4#4 0x81#8) ∧
      decodeTableWord 20 0b10010001010110011110 = some (.pcmStart1 5#4 0x9E#8) ∧
      decodeTableWord 20 0b10010010011010111011 = some (.pcmStart2 6#4 0xBB#8) ∧
      decodeTableWord 20 0b10010011100011011000 = some (.pcmEnd0 8#4 0xD8#8) ∧
      decodeTableWord 20 0b10010100100111110101 = some (.pcmEnd1 9#4 0xF5#8) ∧
      decodeTableWord 20 0b10010101101000010010 = some (.pcmEnd2 10#4 0x12#8) ∧
      decodeTableWord 20 0b10010110110000101111 = some (.pcmLoop0 12#4 0x2F#8) ∧
      decodeTableWord 20 0b10010111110101001100 = some (.pcmLoop1 13#4 0x4C#8) ∧
      decodeTableWord 20 0b10011000111001101001 = some (.pcmLoop2 14#4 0x69#8) ∧
      decodeTableWord 20 0b10011001000010000110 = some (.pcmFormat 0#4 0x86#8) ∧
      decodeTableWord 20 0b10011010011001010101 = some (.pcmReserved 10#4 6#4 0x55#8) ∧
      decodeTableWord 20 0b10011111111001010101 = some (.pcmReserved 15#4 14#4 0x55#8) ∧
      decodeTableWord 20 0b10010011011100000100 = some (.pcmInvalidSel 3#4 7#4 0x04#8) := by decide

theorem test_decode_timer_and_external_addresses :
    decodeTableWord 20 0b11010000110000000010 = some (.grpSync 12#4 0x02#8) ∧
      decodeTableWord 20 0b11010000111110000001 = some (.grpSync 15#4 0x81#8) ∧
      decodeTableWord 20 0b11010001000011000000 = some (.timAHi 0xC0#8) ∧
      decodeTableWord 20 0b11010001000111000001 = some (.timALo 0xC1#8) ∧
      decodeTableWord 20 0b11010001001011000010 = some (.timB 0xC2#8) ∧
      decodeTableWord 20 0b11010001001111000011 = some (.timCtrl 0xC3#8) ∧
      decodeTableWord 20 0b11010001010011000100 = some (.extAddr0 0xC4#8) ∧
      decodeTableWord 20 0b11010001010111000101 = some (.extAddr1 0xC5#8) ∧
      decodeTableWord 20 0b11010001011011000110 = some (.extAddr2 0xC6#8) ∧
      decodeTableWord 20 0b11010001011111000111 = some (.extData 0xC7#8) ∧
      decodeTableWord 20 0b11010001100011111111 = some (.timReserved 0x18#8 0xFF#8) ∧
      decodeTableWord 20 0b11011111011111111111 = some (.timReserved 0xF7#8 0xFF#8) := by decide

theorem test_decode_reads :
    decodeTableWord 4 0b0000 = some (.readStatus0) ∧
      decodeTableWord 4 0b0001 = some (.readStatus1) ∧
      decodeTableWord 4 0b0010 = some (.readExtdata) ∧
      decodeTableWord 4 0b0011 = some (.readUndoc 3#4) ∧
      decodeTableWord 4 0b1111 = some (.readUndoc 15#4) := by decide

theorem test_decode_sync0_rows :
    decodeTableWord 6 0b000000 = some (.alg0_0) ∧
      decodeTableWord 6 0b000001 = some (.alg0_1) ∧
      decodeTableWord 6 0b000010 = some (.alg0_2) ∧
      decodeTableWord 6 0b000011 = some (.alg0_3) ∧
      decodeTableWord 6 0b000100 = some (.alg0_4) ∧
      decodeTableWord 6 0b000101 = some (.alg0_5) ∧
      decodeTableWord 6 0b000110 = some (.alg0_6) ∧
      decodeTableWord 6 0b000111 = some (.alg0_7) ∧
      decodeTableWord 6 0b001000 = some (.alg0_8) ∧
      decodeTableWord 6 0b001001 = some (.alg0_9) ∧
      decodeTableWord 6 0b001010 = some (.alg0_10) ∧
      decodeTableWord 6 0b001011 = some (.alg0_11) ∧
      decodeTableWord 6 0b001100 = some (.alg0_12) ∧
      decodeTableWord 6 0b001101 = some (.alg0_13) ∧
      decodeTableWord 6 0b001110 = some (.alg0_14) ∧
      decodeTableWord 6 0b001111 = some (.alg0_15) := by decide

theorem test_decode_sync1_sync2_sync3_rows :
    decodeTableWord 6 0b010100 = some (.alg1_0 1#2) ∧
      decodeTableWord 6 0b011001 = some (.alg1_1 2#2) ∧
      decodeTableWord 6 0b011110 = some (.alg1_2 3#2) ∧
      decodeTableWord 6 0b010011 = some (.alg1_3 0#2) ∧
      decodeTableWord 6 0b101000 = some (.alg2_0 1#1) ∧
      decodeTableWord 6 0b100001 = some (.alg2_1 0#1) ∧
      decodeTableWord 6 0b101010 = some (.alg2_2 1#1) ∧
      decodeTableWord 6 0b100011 = some (.alg2_3 0#1) ∧
      decodeTableWord 6 0b101100 = some (.alg2_4 1#1) ∧
      decodeTableWord 6 0b100101 = some (.alg2_5 0#1) ∧
      decodeTableWord 6 0b101110 = some (.alg2_6 1#1) ∧
      decodeTableWord 6 0b100111 = some (.alg2_7 0#1) ∧
      decodeTableWord 6 0b110110 = some (.sync3 6#4) := by decide

theorem test_decode_host_operations :
    decode (.ho (.update 3)) = .hostUpdate 3 ∧ decode (.ho .reset) = .hostReset ∧
      decode (.ho (.start ⟨1, 0⟩)) = .hostStart ⟨1, 0⟩ ∧ decode (.ho .tickA) = .hostTickA ∧
      decode (.ho .tickB) = .hostTickB ∧ decode (.ho (.allocRom 4)) = .hostAllocRom 4 ∧
      decode (.ho (.writeRom 2 [1#8])) = .hostWriteRom 2 [1#8] ∧ decode (.ho (.setMute 9#12)) = .hostMute 9#12 := by decide

/-- A string of the wrong length and one with a bit above the format are rejected by name. -/
theorem test_decode_rejects :
    decodeBytes .pw [0#8, 0#8] = .error .wrongLength ∧ decodeBytes .pw [0#8, 0#8, 0x10#8] = .error .strayBit ∧
      decodeBytes .pr [0x10#8] = .error .strayBit ∧ decodeBytes .al [0x40#8] = .error .strayBit ∧
      decodeTableWord 32 0 = none := by
  refine ⟨?_, ?_, ?_, ?_, ?_⟩ <;> rfl

/-- Every odd port takes the sub-address of the register before it, the unused ones too (R101). -/
theorem test_effectiveWord :
    ([0x1#4, 0xB#4, 0xD#4, 0xF#4].map fun p => (s0.setReg (p - 1#4) 0x25#8).effectiveWord p 0x7F#8) =
        [0x1257F#20, 0xB257F#20, 0xD257F#20, 0xF257F#20] ∧
      (s0.withFetchWord 24 0xF257F).effectiveWord 0xF#4 0x7F#8 = 0xF257F#20 := by decide +kernel
/-- The next step after `withFetchWord` runs the word: `FM_TL` of bank 1, selector 5, and a dispatch row. -/
theorem test_withFetchWord_runs_the_word :
    (match step (s0.withFetchWord 24 0b00110100010101111111) with
      | .next t => some ((t.slot 16).tl, t.input)
      | _ => none) = some (0x7F#7, []) ∧
    step (s0.withFetchWord 8 0b100101) =
      exec (.alg2_5 0#1) { s0.withFetchWord 8 0b100101 with input := [] } := by
  constructor
  · decide +kernel
  · rfl

/-! ### Port writes and reads (spec/95_test_vectors.md 3.1) -/
/-- W1, W10: a latch or unused port stores the byte alone. -/
theorem test_latch_stores :
    after (.portLatchFm0 0x10#8) s0 (fun t => (t.reg 0#4, decide ({ t with regs := s0.regs } = s0))) =
      some (0x10#8, true) := by decide +kernel
theorem test_latch_ports :
    (after (.portLatchFm1 0x45#8) s0 (·.reg 2#4), after (.portLatchFm2 0x46#8) s0 (·.reg 4#4),
      after (.portLatchFm3 0x47#8) s0 (·.reg 6#4), after (.portLatchPcm 0x93#8) s0 (·.reg 8#4),
      after (.portLatchTim 0x13#8) s0 (·.reg 12#4)) =
      (some 0x45#8, some 0x46#8, some 0x47#8, some 0x93#8, some 0x13#8) := by decide +kernel
theorem test_unused_ports :
    (after (.portUnusedA 0x12#8) s0 (·.reg 10#4), after (.portUnusedB 0x34#8) s0 (·.reg 11#4),
      after (.portUnusedE 1#8) s0 (·.reg 14#4), after (.portUnusedF 2#8) s0 (·.reg 15#4)) =
      (some 0x12#8, some 0x34#8, some 1#8, some 2#8) := by decide +kernel

/-- W2: a step takes the sub-address that the even port latched. -/
theorem test_write_uses_the_latched_address :
    (match step { s0.setReg 2#4 0x45#8 with input := [.write 3#4 0x7F#8] } with
      | .next t => some (t.slot 16).tl
      | _ => none) = some 127#7 := by decide +kernel
/-- W9: with nothing latched the sub-address is 0, a key-on of the four banks of group 0. -/
theorem test_write_without_latch :
    (match step { s0 with input := [.write 1#4 5#8] } with
      | .next t => some ((t.slot 0).active, (t.slot 12).active, (t.slot 24).active, (t.slot 36).active, (t.slot 1).active)
      | _ => none) = some (true, true, true, true, false) := by decide +kernel
/-- W8, P-W6: an invalid selector. -/
theorem test_invalid_selectors :
    after (.fmInvalidSel 0#2 4#4 3#4 0x55#8) s0 (fun t => (t.reg 1#4, decide ({ t with regs := s0.regs } = s0))) =
        some (0x55#8, true) ∧
      after (.pcmInvalidSel 9#4 3#4 4#8) s0 (fun t => (t.reg 9#4, decide ({ t with regs := s0.regs } = s0))) =
        some (4#8, true) := by decide +kernel
/-- R1, R2, R3: the status bytes. -/
theorem test_readStatus0 :
    (after .readStatus0 { s0 with status := 1#2, endStatus := 2#16 } (·.result),
      after .readStatus0 { s0 with status := 3#2, endStatus := 0xF#16 } (·.result)) =
      (some (.byte 0x11#8), some (.byte 0x7B#8)) := by decide +kernel
theorem test_readStatus1 : after .readStatus1 { s0 with endStatus := 0x0810#16 } (·.result) = some (.byte 0x81#8) := by
  decide +kernel
/-- R5, R6: the latch is returned, the cursor advances and wraps. -/
theorem test_readExtdata :
    after .readExtdata { s0 with rom := ⟨3, [(0, 0x11#8), (1, 0x22#8), (2, 0x33#8)]⟩, extReadlatch := 0x11#8 }
      (fun t => (t.result, t.extAddress, t.extReadlatch)) = some (.byte 0x11#8, 1#23, 0x22#8) ∧
    after .readExtdata { s0 with extAddress := 0x7FFFFF#23, extReadlatch := 9#8 }
      (fun t => (t.result, t.extAddress)) = some (.byte 9#8, 0#23) := by decide +kernel
theorem test_readUndoc : after (.readUndoc 15#4) s0 (·.result) = some (.byte 0xFF#8) := by decide +kernel

/-! ### FM parameter writes (spec/95_test_vectors.md 3.2) -/

/-- F17, F18. -/
theorem test_fmKey_off :
    (after (.fmKey 0#2 0#4 0#8) s3 (fun t => decide (t.slot 0 = s3.slot 0)),
      after (.fmKey 0#2 0#4 0#8) (s3.setSlot 0 (sounding 0)) (fun t => (t.slot 0).envState)) =
      (some true, some .release) := by decide +kernel
/-- F19: a key-on. -/
theorem test_fmKey_on :
    after (.fmKey 0#2 0#4 1#8)
      { s3.setSlot 0 { sounding 9 with fbMod0 := 5#64, loopDirection := .reverse } with endStatus := 1#16 }
      (fun t => (t.endStatus, (t.slot 0).volume, (t.slot 0).envState, (t.slot 0).stepptr, (t.slot 0).fbMod0,
        (t.slot 0).loopDirection)) =
      some (0#16, 95 * 65536, .attack, 0#64, 0#64, .forward) := by decide +kernel
/-- E3, L1: the steps that a key-on computes. -/
theorem test_fmKey_on_steps :
    after (.fmKey 0#2 0#4 1#8) (s3.setSlot 0 { sounding 9 with ar := 31#5, lfoFreq := 1#8 })
      (fun t => ((t.slot 0).envStepAttack, (t.slot 0).step, (t.slot 0).lfoStep)) =
      some (33423360, 524288#32, 256#32) := by decide +kernel
/-- W6: the sync-2 set of a key-on. -/
theorem test_fmKey_mirror :
    after (.fmKey 0#2 0#4 1#8) (inSync 0 2#2)
      (fun t => ((t.slot 0).active, (t.slot 12).active, (t.slot 24).active, (t.slot 36).active)) =
      some (true, true, true, false) := by decide +kernel
theorem test_fmLfofreq : after (.fmLfofreq 0#2 0#4 0x80#8) s3 (fun t => (t.slot 0).lfoFreq) = some 128#8 := by decide +kernel
theorem test_fmLfowave :
    after (.fmLfowave 0#2 0#4 0xD9#8) s3 (fun t => ((t.slot 0).lfowave, (t.slot 0).pms, (t.slot 0).ams)) =
      some (1#2, 3#3, 3#2) := by decide +kernel
theorem test_fmMuldt :
    (after (.fmMuldt 0#2 0#4 0x51#8) s3 (fun t => ((t.slot 0).multiple, (t.slot 0).detune)),
      after (.fmMuldt 0#2 0#4 0xFF#8) s3 (fun t => ((t.slot 0).multiple, (t.slot 0).detune))) =
      (some (1#4, 5#3), some (15#4, 7#3)) := by decide +kernel
/-- F5, W7: `tl` is not mirrored. -/
theorem test_fmTl :
    (after (.fmTl 0#2 0#4 0x84#8) s3 (fun t => (t.slot 0).tl),
      after (.fmTl 0#2 0#4 0x10#8) s0 (fun t => ((t.slot 0).tl, (t.slot 12).tl))) =
      (some 4#7, some (16#7, 0#7)) := by decide +kernel
theorem test_fmAr :
    after (.fmAr 0#2 0#4 0x5F#8) s3 (fun t => ((t.slot 0).ar, (t.slot 0).keyscale)) = some (31#5, 2#2) := by decide +kernel
theorem test_fmD1r : after (.fmD1r 0#2 0#4 0xFF#8) s3 (fun t => (t.slot 0).d1r) = some 31#5 := by decide +kernel
theorem test_fmD2r : after (.fmD2r 0#2 0#4 0xE3#8) s3 (fun t => (t.slot 0).d2r) = some 3#5 := by decide +kernel
theorem test_fmRrd1l :
    after (.fmRrd1l 0#2 0#4 0x3F#8) s3 (fun t => ((t.slot 0).rr, (t.slot 0).d1l)) = some (15#4, 3#4) := by decide +kernel
/-- F10: the high byte is latched alone. -/
theorem test_fmFnshi :
    after (.fmFnshi 0#2 0#4 0xC7#8) (s3.setSlot 0 (sounding 0))
      (fun t => ((t.slot 0).fnsHi, (t.slot 0).block, (t.slot 0).fns)) = some (0xC7#8, 4#4, 0x400#12) := by decide +kernel
/-- F11: the low byte commits both. -/
theorem test_fmFnslo :
    after (.fmFnslo 0#2 0#4 0x12#8) (s3.setSlot 0 { sounding 0 with fnsHi := 0xC7#8 })
      (fun t => ((t.slot 0).block, (t.slot 0).fns)) = some (12#4, 0x712#12) := by decide +kernel
/-- W5: the sync-1 mirror of bank 1. -/
theorem test_fmFnslo_mirror :
    after (.fmFnslo 1#2 0#4 0#8)
      ((((inSync 0 1#2).modSlot 12 ({ · with fnsHi := 0x44#8 })).modSlot 36 ({ · with fnsHi := 0x44#8 })).modSlot 24
        ({ · with fnsHi := 0x44#8 }))
      (fun t => ((t.slot 12).fns, (t.slot 36).fns, (t.slot 0).fns, (t.slot 24).fns)) =
      some (0x400#12, 0x400#12, 0#12, 0#12) := by decide +kernel
theorem test_fmWave :
    (after (.fmWave 0#2 0#4 0x87#8) s3 (fun t => ((t.slot 0).waveform, (t.slot 0).feedback, (t.slot 0).accon)),
      after (.fmWave 0#2 0#4 0x7E#8) s3 (fun t => ((t.slot 0).waveform, (t.slot 0).feedback, (t.slot 0).accon))) =
      (some (7#3, 0#3, true), some (6#3, 7#3, false)) := by decide +kernel
/-- F14, W3, W4. -/
theorem test_fmAlg :
    (after (.fmAlg 0#2 0#4 0xFF#8) s3 (fun t => ((t.slot 0).algorithm, (t.slot 12).algorithm)),
      after (.fmAlg 1#2 0#4 7#8) s0 (fun t => ((t.slot 0).algorithm, (t.slot 12).algorithm))) =
      (some (15#4, 0#4), some (0#4, 7#4)) := by decide +kernel
theorem test_fmAlg_mirror :
    after (.fmAlg 0#2 0#4 5#8) s0
      (fun t => ((t.slot 0).algorithm, (t.slot 12).algorithm, (t.slot 24).algorithm, (t.slot 36).algorithm)) =
      some (5#4, 5#4, 5#4, 5#4) := by decide +kernel
theorem test_fmCh01 :
    after (.fmCh01 0#2 0#4 0x0F#8) s3 (fun t => ((t.slot 0).ch0Level, (t.slot 0).ch1Level)) = some (0#4, 15#4) := by
  decide +kernel
theorem test_fmCh23 :
    after (.fmCh23 0#2 0#4 0x21#8) s3 (fun t => ((t.slot 0).ch2Level, (t.slot 0).ch3Level)) = some (2#4, 1#4) := by
  decide +kernel
theorem test_fmReserved :
    after (.fmReserved 0#2 0#4 0xFF#8) s3 (fun t => decide ({ t with regs := s3.regs } = s3)) = some true := by
  decide +kernel

/-! ### PCM, group, timer and external-memory writes (spec/95_test_vectors.md 3.3) -/

/-- Slot 0 with every PCM address at a marker value. -/
def marked : State :=
  s0.modSlot 0 fun t => { t with startaddr := 0x123456#23, endaddr := 0x123456#23, loopaddr := 0x123456#23 }

theorem test_pcmStart :
    (after (.pcmStart0 0#4 0x34#8) (s0.modSlot 0 ({ · with startaddr := 0x120000#23 })) (fun t => (t.slot 0).startaddr),
      after (.pcmStart1 0#4 0xAB#8) marked (fun t => (t.slot 0).startaddr),
      after (.pcmStart2 0#4 0x81#8) marked (fun t => ((t.slot 0).startaddr, (t.slot 0).altloop))) =
      (some 0x120034#23, some 0x12AB56#23, some (0x013456#23, true)) := by decide +kernel
theorem test_pcmEnd :
    (after (.pcmEnd0 6#4 0xFF#8) s0 (fun t => (t.slot 20).endaddr),
      after (.pcmEnd1 0#4 0x01#8) marked (fun t => (t.slot 0).endaddr),
      after (.pcmEnd2 0#4 0xFF#8) marked (fun t => ((t.slot 0).endaddr, (t.slot 0).altloop))) =
      (some 0xFF#23, some 0x120156#23, some (0x7F3456#23, false)) := by decide +kernel
theorem test_pcmLoop :
    (after (.pcmLoop0 14#4 0x80#8) s0 (fun t => (t.slot 44).loopaddr),
      after (.pcmLoop1 0#4 0x00#8) marked (fun t => (t.slot 0).loopaddr),
      after (.pcmLoop2 0#4 0x80#8) marked (fun t => ((t.slot 0).loopaddr, (t.slot 0).altloop))) =
      (some 0x80#23, some 0x120056#23, some (0x003456#23, false)) := by decide +kernel
theorem test_pcmFormat :
    after (.pcmFormat 0#4 0x2C#8) s0
      (fun t => ((t.slot 0).fs, (t.slot 0).bits, (t.slot 0).srcnote, (t.slot 0).srcb)) =
      some (0#2, .twelve, 1#2, 1#3) := by decide +kernel
theorem test_pcmReserved :
    after (.pcmReserved 10#4 0#4 0x55#8) s0 (fun t => (t.reg 9#4, decide ({ t with regs := s0.regs } = s0))) =
      some (0x55#8, true) := by decide +kernel
/-- T6, T8. -/
theorem test_grpSync :
    (after (.grpSync 4#4 0x81#8) s0 (fun t => t.group 3), after (.grpSync 3#4 3#8) s0 (fun t => decide (t.groups = s0.groups))) =
      (some ⟨1#2, true, false⟩, some true) := by decide +kernel
/-- T9 under DIRECT. -/
theorem test_grpSync_direct :
    after (.grpSync 11#4 3#8) { s0 with config := { tc with timerGroupDecode := .direct } } (fun t => (t.group 11).sync) =
      some 3#2 := by decide +kernel
/-- P3 steps 1, 2 and T5. -/
theorem test_timAHi :
    after (.timAHi 0xFF#8) s0 (fun t => (t.timerA, t.timerAPeriod)) = some (1020#10, 1536) := by decide +kernel
theorem test_timALo :
    (after (.timALo 3#8) { s0 with timerA := 1020#10 } (fun t => (t.timerA, t.timerAPeriod)),
      after (.timALo 0xFE#8) { s0 with timerA := 1020#10 } (·.timerA)) = (some (1023#10, 384), some 1022#10) := by
  decide +kernel
theorem test_timB : after (.timB 0xFF#8) s0 (fun t => (t.timerB, t.timerBPeriod)) = some (255#8, 6144) := by decide +kernel
/-- I3, I4. -/
theorem test_timCtrl :
    (after (.timCtrl 0x10#8) { s0 with irqstate := 3#2 } (fun t => (t.irqstate, t.events)),
      after (.timCtrl 1#8) { s0 with irqstate := 1#2 } (fun t => (t.irqstate, t.enable))) =
      (some (2#2, []), some (1#2, 1#8)) := by decide +kernel
/-- I5. -/
theorem test_timCtrl_releases :
    after (.timCtrl 0x30#8) { s0 with status := 3#2, irqstate := 3#2 } (fun t => (t.status, t.irqstate, t.events)) =
      some (0#2, 0#2, [.irqChanged false]) := by decide +kernel
theorem test_extAddr :
    (after (.extAddr0 5#8) { s0 with extAddress := 0x123456#23 } (·.extAddress),
      after (.extAddr1 5#8) { s0 with extAddress := 0x123456#23 } (·.extAddress),
      after (.extAddr2 0x85#8) { s0 with extAddress := 0x123456#23 } (fun t => (t.extAddress, t.extRw))) =
      (some 0x123405#23, some 0x120556#23, some (0x053456#23, true)) := by decide +kernel
theorem test_extAddr_reloads_the_latch :
    after (.extAddr0 1#8) { s0 with rom := ⟨3, [(0, 0x11#8), (1, 0x22#8)]⟩ } (·.extReadlatch) = some 0x22#8 := by
  decide +kernel
/-- X-E1, X-E2. -/
theorem test_extData :
    (after (.extData 0xAA#8) { s0 with extAddress := 5#23 } (fun t => (t.events, t.extAddress)),
      after (.extData 0x55#8) { s0 with extRw := true } (fun t => (t.events, t.extAddress))) =
      (some ([.extWrite 5#23 0xAA#8], 6#23), some ([], 1#23)) := by decide +kernel
theorem test_timReserved :
    after (.timReserved 0x20#8 0xFF#8) s0 (fun t => (t.reg 13#4, decide ({ t with regs := s0.regs } = s0))) =
      some (0xFF#8, true) := by decide +kernel

/-! ### Host operations (spec/95_test_vectors.md 3.10, 3.11) -/

/-- I1, I2. -/
theorem test_hostTickA :
    (after .hostTickA { s0 with enable := 1#8 } (fun t => (t.status, t.irqstate, t.events)),
      after .hostTickA { s0 with enable := 5#8 } (fun t => (t.status, t.irqstate, t.events))) =
      (some (1#2, 0#2, []), some (1#2, 1#2, [.irqChanged true])) := by decide +kernel
/-- I6. -/
theorem test_hostTickB : after .hostTickB s0 (fun t => (t.status, t.irqstate)) = some (2#2, 0#2) := by decide +kernel
/-- U5. -/
theorem test_hostRom :
    after (.hostAllocRom 4) s0 (fun t => (t.rom.size, memRead t.rom 0, memRead t.rom 4)) = some (4, 0xFF#8, 0#8) ∧
      after (.hostWriteRom 2 [1#8, 2#8, 3#8]) { s0 with rom := ⟨4, []⟩ } (·.rom) = some ⟨4, [(2, 1#8), (3, 2#8)]⟩ := by
  decide +kernel
/-- U3. -/
theorem test_hostMute :
    after (.hostMute 9#12) s0 (fun t => ((t.group 0).muted, (t.group 1).muted, (t.group 3).muted)) =
      some (true, false, true) := by decide +kernel
/-- X3, and the released IRQ. -/
theorem test_hostReset :
    after .hostReset { s0.setGroup 5 ⟨3#2, true, true⟩ with irqstate := 1#2, timerAPeriod := 384 }
      (fun t => (t.group 5, t.irqstate, t.timerAPeriod, t.events)) =
      some (⟨0#2, false, true⟩, 0#2, 393216, [.irqChanged false]) := by decide +kernel
theorem test_hostStart :
    after (.hostStart ⟨999, 0⟩) { s0.setGroup 5 ⟨3#2, true, true⟩ with rom := ⟨4, [(1, 2#8)]⟩ }
      (fun t => (t.group 5, t.rom, t.config.clock)) = some (⟨0#2, false, false⟩, ⟨0, []⟩, ⟨999, 0⟩) := by decide +kernel
theorem test_hostStart_fails :
    exec (.hostStart stdClock) { s0 with config := { tc with startAllocOk := false } } = .fault .startFailed := rfl
/-- U1, X1: silence. -/
theorem test_hostUpdate_silence :
    (after (.hostUpdate 0) s0 (·.result), after (.hostUpdate 2) s0 (·.result)) =
      (some (.samples [] []), some (.samples [0#32, 0#32] [0#32, 0#32])) := by decide +kernel
/-- P4: the ACC path of one PCM voice, two samples. -/
theorem test_hostUpdate_acc :
    after (.hostUpdate 2)
      { s3.setSlot 0 { sounding 0 with
          waveform := 7#3, accon := true, tl := 4#7, bits := .twelve, block := 0#4, fns := 0#12, ch0Level := 0#4
          ch1Level := 1#4, ch2Level := 15#4, ch3Level := 15#4 } with rom := ⟨3, [(0, 0x4E#8), (1, 0x20#8), (2, 0#8)]⟩ }
      (fun t => (t.result, (t.slot 0).stepptr, t.endStatus)) =
      some (.samples [8191#32, 8191#32] [6142#32, 6142#32], 0#64, 1#16) := by decide +kernel

/-! ### Rendering rows: channel 0 and the leader's feedback word, worked by hand from R300 to R304, R333 and the row's
rule, on `fourSines` -/

theorem test_alg0_0 : after .alg0_0 fourSines heard = some (some (-31711), 1487424) := by decide +kernel
theorem test_alg0_1 : after .alg0_1 fourSines heard = some (some (-31711), 639424) := by decide +kernel
theorem test_alg0_2 : after .alg0_2 fourSines heard = some (some 24877, 1487424) := by decide +kernel
theorem test_alg0_3 : after .alg0_3 fourSines heard = some (some 5304, 1487424) := by decide +kernel
theorem test_alg0_4 : after .alg0_4 fourSines heard = some (some (-30156), 1487424) := by decide +kernel
theorem test_alg0_5 : after .alg0_5 fourSines heard = some (some (-30156), 639424) := by decide +kernel
theorem test_alg0_6 : after .alg0_6 fourSines heard = some (some 41377, 1487424) := by decide +kernel
theorem test_alg0_7 : after .alg0_7 fourSines heard = some (some 41377, 639424) := by decide +kernel
theorem test_alg0_8 : after .alg0_8 fourSines heard = some (some 34374, 1487424) := by decide +kernel
theorem test_alg0_9 : after .alg0_9 fourSines heard = some (some 2068, 1487424) := by decide +kernel
theorem test_alg0_10 : after .alg0_10 fourSines heard = some (some 27101, 1487424) := by decide +kernel
theorem test_alg0_11 : after .alg0_11 fourSines heard = some (some 27101, 639424) := by decide +kernel
theorem test_alg0_12 : after .alg0_12 fourSines heard = some (some 25579, 1487424) := by decide +kernel
theorem test_alg0_13 : after .alg0_13 fourSines heard = some (some 54305, 1487424) := by decide +kernel
theorem test_alg0_14 : after .alg0_14 fourSines heard = some (some 64618, 1487424) := by decide +kernel
theorem test_alg0_15 : after .alg0_15 fourSines heard = some (some 47039, 1487424) := by decide +kernel
theorem test_alg1_0 : after (.alg1_0 3#2) fourSines heard = some (some 9991, 1487424) := by decide +kernel
theorem test_alg1_1 : after (.alg1_1 3#2) fourSines heard = some (some 9991, 639424) := by decide +kernel
theorem test_alg1_2 : after (.alg1_2 3#2) fourSines heard = some (some 29929, 1487424) := by decide +kernel
theorem test_alg1_3 : after (.alg1_3 3#2) fourSines heard = some (some 33232, 1487424) := by decide +kernel
theorem test_alg2_0 : after (.alg2_0 1#1) fourSines heard = some (some (-22375), 1487424) := by decide +kernel
theorem test_alg2_1 : after (.alg2_1 1#1) fourSines heard = some (some (-22375), 639424) := by decide +kernel
theorem test_alg2_2 : after (.alg2_2 1#1) fourSines heard = some (some (-28054), 1487424) := by decide +kernel
theorem test_alg2_3 : after (.alg2_3 1#1) fourSines heard = some (some 39304, 1487424) := by decide +kernel
theorem test_alg2_4 : after (.alg2_4 1#1) fourSines heard = some (some 12100, 1487424) := by decide +kernel
theorem test_alg2_5 : after (.alg2_5 1#1) fourSines heard = some (some 12100, 639424) := by decide +kernel
theorem test_alg2_6 : after (.alg2_6 1#1) fourSines heard = some (some 32038, 1487424) := by decide +kernel
theorem test_alg2_7 : after (.alg2_7 1#1) fourSines heard = some (some 35341, 1487424) := by decide +kernel
/-- G4: pair B renders slots 12 and 36. -/
theorem test_alg1_pair_b :
    after (.alg1_0 0#2) { fourSines with pos := ⟨0, .b⟩ } (fun t => ((t.slot 12).stepptr, (t.slot 0).stepptr)) =
      some (1179648#64, 8388608#64) := by decide +kernel
/-- G5: the gate. -/
theorem test_alg_gate :
    after .alg0_15 (fourSines.modSlot 0 ({ · with active := false })) (fun t => (heard t, (t.slot 36).stepptr)) =
      some ((some 0, 0), 5046272#64) := by decide +kernel
/-- G9: a PFM carrier of group 0 reads the PCM memory and loops. -/
theorem test_alg_pfm :
    after .alg0_15
      { (s0.setSlot 0 { sounding 1 with waveform := 7#3, block := 0#4, fns := 0#12, endaddr := 1#23 }).setGroup 0
          ⟨0#2, true, false⟩ with
        mixbuf := [Frame.zero], accbuf := [Frame.zero], rom := ⟨2, [(0, 0x40#8), (1, 0x20#8)]⟩ }
      (fun t => ((heard t).1, t.endStatus, (t.slot 0).stepptr)) = some (some 8192, 1#16, 65536#64) := by decide +kernel
/-- R380, P-F1: the four voices, each at its own level; slot 12 is inactive. -/
theorem test_sync3 :
    after (.sync3 0#4)
      { ((s3.setSlot 0 { sounding 0 with waveform := 7#3, block := 0#4, fns := 0#12 }).setSlot 24
          { sounding 1 with waveform := 7#3, block := 0#4, fns := 0#12, endaddr := 9#23 }) with
        mixbuf := [Frame.zero], accbuf := [Frame.zero], rom := ⟨2, [(0, 0x80#8), (1, 0x7F#8)]⟩ }
      (fun t => ((heard t).1, t.endStatus, (t.slot 24).stepptr)) = some (some (-256), 1#16, 131072#64) := by
  decide +kernel

/-! ### Shared operations (spec/95_test_vectors.md 3.4 to 3.9) -/

/-- E1, E2. -/
theorem test_keycode :
    (keycode { sounding 0 with fns := 0x900#12 }, keycode { sounding 0 with block := 12#4, fns := 0xA80#12 },
      keycode { sounding 0 with waveform := 7#3, block := 0#4, fns := 0x200#12, srcb := 1#3, srcnote := 2#2 },
      keycode { sounding 0 with waveform := 7#3, block := 15#4, fns := 0x7FF#12, srcb := 7#3, srcnote := 3#2 }) =
      (18, 19, 7, 31) := by decide +kernel
/-- E5: the steps of a key-on and the second DECAY1 tick. -/
theorem test_envelope :
    (envStepOf tc { sounding 0 with d1r := 31#5, d1l := 8#4 } .decay1,
      envStepOf tc { sounding 0 with d2r := 31#5 } .decay2,
      (updateEnvelope { sounding 0 with envState := .decay1, envStepDecay1 := 32896, d1l := 8#4 }).volume) =
      (32896, 65536, 16678784) := by decide +kernel
/-- E7: the end of a release. -/
theorem test_envelope_release :
    ((updateEnvelope { sounding 0 with envState := .release, envStepRelease := 33423360 }).volume,
      (updateEnvelope { sounding 0 with envState := .release, envStepRelease := 33423360 }).active) = (0, false) := by
  decide +kernel
/-- L2, L5, L6. -/
theorem test_lfo :
    ((updateLfo tc { sounding 0 with lfowave := 3#2, pms := 7#3, lfoStep := 256#32 }).step,
      alfoGainAt tc 3#2 32768, slotVolume tc { sounding 0 with ams := 3#2, lfoAmplitude := 65536 }) =
      (524663#32, 34927, 4317) := by decide +kernel
/-- A configuration that sets an entry of each constrained table and one that the spec fixes: R272 (2^(10.114/1200) at
`phi = 1` is 1.00586, at `phi = -1` its inverse), R273, R282, R432. -/
theorem test_overrides :
    let c : Config := { tc with
      lfoShape := [(0, .ofRatio false 1 0), (260, .ofRatio false 1 0), (261, .ofRatio true 1 0)], alfo := [(0, 7), (256, 7)]
      lutDetune := [(0, ⟨5, 0⟩), (32, ⟨5, 0⟩), (128, ⟨5, 0⟩), (160, ⟨5, 0⟩)], attn := [(0, 9), (1, 9), (13, 9)] }
    (plfoAt c 0#2 7#3 0, plfoAt c 1#2 0#3 4, plfoAt c 1#2 4#3 4 * 100000 / 2 ^ 53, plfoAt c 1#2 4#3 5 * 100000 / 2 ^ 53) =
        (2 ^ 53, 2 ^ 53, 100585, 99417) ∧
      (alfoAt c 0#2 0, alfoAt c 1#2 0) = (0, 7) ∧
      ([0#3, 1#3, 4#3, 5#3].map fun d => (detuneAt c d 0).num) = [0, 5, 0, -5] ∧
      ([0#4, 1#4, 13#4].map (attnAt c)) = [65536, 9, 1] := by decide +kernel
/-- P1v, P2v, P4v and the table of R403. -/
theorem test_calcStep :
    (calcStep tc { sounding 0 with multiple := 0#4 }, calcStep tc { sounding 0 with block := 15#4 },
      calcStep tc { sounding 0 with fns := 0xFFF#12, block := 7#4, multiple := 15#4 },
      calcStep tc { sounding 0 with waveform := 7#3, block := 0#4, fns := 0#12 }) =
      (262144#32, 16384#32, 251596800#32, 65536#32) := by decide +kernel
/-- O1 to O5. -/
theorem test_tables :
    ([waveAt 0#3 128, waveAt 1#3 600, waveAt 2#3 600, waveAt 3#3 300, waveAt 4#3 300, waveAt 5#3 300],
      [tlAt 8, evAt 160, attnAt tc 12#4]) =
      ([23241, -8749, 16932, 31554, -16932, 16932], [32845, 65, 1026]) := by decide +kernel
/-- O8, O9, O10, O11. -/
theorem test_operator :
    ((setFeedback { sounding 0 with feedback := 1#3 } (-3)).fbMod1.toInt,
      (feedbackInput { sounding 0 with fbMod1 := 409600#64 }).1, phaseIndex 524288#64 204800, phaseIndex 0#64 (-65536)) =
      (-192, 204800, 11, 1023) := by decide +kernel
/-- P-F2, P-F4, P-F5. -/
theorem test_pcmSample :
    (pcmSample ⟨3, [(0, 0x12#8), (1, 0x34#8), (2, 0x56#8)]⟩ { Slot.reset with bits := .twelve } 0,
      pcmSample ⟨3, [(0, 0x12#8), (1, 0x34#8), (2, 0x56#8)]⟩ { Slot.reset with bits := .twelve } 1,
      pcmSample ⟨19, [(17, 0x12#8), (18, 0x34#8)]⟩ { Slot.reset with bits := .twelve, startaddr := 10#23 } 5,
      pcmSample ⟨4, []⟩ Slot.reset 4) = (4656, 22080, 0x3420, 0) := by decide +kernel
/-- P-L1, P-L2, P-L3, P-L6. -/
theorem test_loop_forward :
    ([(255, 128, 256 * 65536 + 0x8000), (10, 8, 15 * 65536), (10, 20, 11 * 65536)].map fun (e, l, p) =>
      (loopCheck { Slot.reset with
        endaddr := BitVec.ofNat 23 e, loopaddr := BitVec.ofNat 23 l, stepptr := BitVec.ofNat 64 p }).1.stepptr.toNat) =
      [129 * 65536 + 0x8000, 8 * 65536, 10 * 65536] := by decide +kernel
/-- P-L4, P-L5. -/
theorem test_loop_turns :
    (let t := (loopCheck { Slot.reset with endaddr := 255#23, altloop := true, stepptr := BitVec.ofNat 64 (256 * 65536) }).1;
      (t.stepptr.toNat, t.loopDirection)) = (255 * 65536, .reverse) ∧
    (let t := (loopCheck { Slot.reset with
        loopaddr := 128#23, loopDirection := .reverse, stepptr := BitVec.ofNat 64 (127 * 65536) }).1;
      (t.stepptr.toNat, t.loopDirection)) = (128 * 65536, .forward) := by decide +kernel
/-- A1 to A3, A6, A8. -/
theorem test_mixer :
    (accSample { Slot.reset with tl := 4#7 } 20000, accSample { Slot.reset with tl := 4#7 } (-20000),
      accSample Slot.reset (-3), addSaturated 131068#32 32767, stereoSide 32767#32 32767#32,
      (stereoSide (BitVec.ofInt 32 (-32512)) (BitVec.ofInt 32 (-32512))).toInt) =
      (32767, -32768, -2, 131071#32, 8351#32, -8287) := by decide +kernel

/-! ### Witnesses: the hypotheses of each statement are met together -/

theorem witness_DecodingAnEncodedInstructionGivesItBack :
    ((Instr.fmKey 3#2 14#4 255#8).wf = true ∧ encode (.fmKey 3#2 14#4 255#8) = .pw 0x70EFF#20) ∧
      (Instr.pcmReserved 10#4 0#4 0#8).wf = true ∧ (Instr.pcmInvalidSel 15#4 3#4 0#8).wf = true ∧
      (Instr.timReserved 0x18#8 0#8).wf = true ∧
      ((Instr.readUndoc 3#4).wf = true ∧ encode (.readUndoc 3#4) = .pr 3#4) ∧
      (Instr.alg2_7 1#1).wf = true ∧ encode (.alg2_7 1#1) = .al 0b101111#6 := by decide
theorem witness_EncodingADecodedWordGivesTheWord :
    wordPort 0xDFFFF#20 ∈ [0x1#4, 0x3#4, 0x5#4, 0x7#4, 0x9#4, 0xD#4] ∧
      wordPort 0xFFFFF#20 ∉ [0x1#4, 0x3#4, 0x5#4, 0x7#4, 0x9#4, 0xD#4] := by decide
theorem witness_StepRunsTheDecodedInstruction :
    s0.input = [] ∧ { s0 with input := [.read 0#4] }.input = .read 0#4 :: [] ∧
      (0x1#4).toNat % 2 = 1 ∧ (0xF#4).toNat % 2 = 1 ∧ (0x0#4).toNat % 2 = 0 ∧ (0xE#4).toNat % 2 = 0 := by
  refine ⟨rfl, rfl, ?_⟩; decide
theorem witness_OnlyAFailedStartStops :
    (∀ c, Instr.hostStart stdClock = .hostStart c → s0.config.startAllocOk = true) ∧
      { s0 with config := { tc with startAllocOk := false } }.config.startAllocOk = false := ⟨fun _ _ => rfl, rfl⟩
theorem witness_LatchUnusedAndReservedWritesOnlyStore :
    selectorValid 0#4 = true ∧ selectorValid 14#4 = true ∧ 10 ≤ (10#4).toNat ∧ 10 ≤ (15#4).toNat ∧
      0x18 ≤ (0x18#8).toNat ∧ 0x18 ≤ (0xFF#8).toNat := by decide
theorem witness_InvalidSelectorWritesAreIgnored :
    (3#4).toNat % 4 = 3 ∧ (15#4).toNat % 4 = 3 ∧ wordPort 0x9F3AA#20 ∈ [0x1#4, 0x3#4, 0x5#4, 0x7#4, 0x9#4] ∧
      (wordSel 0x9F3AA#20).toNat % 4 = 3 := by decide
theorem witness_UndocumentedReadsReturnAllOnes : 3#4 ∉ [0#4, 1#4, 2#4] ∧ 15#4 ∉ [0#4, 1#4, 2#4] := by decide
theorem witness_UnsynchronisedParametersWriteOneSlot : selectorValid 0#4 = true ∧ selectorValid 14#4 = true := by decide
theorem witness_SynchronisedParametersWriteEverySibling :
    selectorValid 0#4 = true ∧ reachesFmSlot (inSync 0 2#2) 0#2 0#4 24 = true ∧
      reachesFmSlot (inSync 0 2#2) 0#2 0#4 36 = false := by decide +kernel
theorem witness_KeyOnStartsEverySibling :
    selectorValid 0#4 = true ∧ (1#8).getLsbD 0 = true ∧ reachesFmSlot s0 0#2 0#4 36 = true ∧
      reachesFmSlot s0 0#2 0#4 1 = false := by decide +kernel
theorem witness_KeyOffReleasesActiveSiblings :
    selectorValid 0#4 = true ∧ (0xFE#8).getLsbD 0 = false ∧
      (reachesFmSlot fourSines 0#2 0#4 36 && (fourSines.slot 36).active) = true := by decide +kernel
theorem witness_PcmWritesReplaceTheirOwnBits : selectorValid 14#4 = true ∧ namesPcmSlot 14#4 44 = true := by decide
theorem witness_PcmFieldsOfUnreachableSlotsStay :
    ∃ t, exec (.pcmStart0 0#4 1#8) s0 = .next t ∧ (1 : SlotIx).val % 4 ≠ 0 := ⟨_, rfl, by decide⟩
theorem witness_GroupSyncWritesOneGroup :
    (s0.config.timerGroupDecode = .fmTab ∧ (14#4).toNat % 4 ≠ 3 ∧ (11 : GroupIx).val = selectedGroup 14#4) ∧
      ({ tc with timerGroupDecode := .direct }.timerGroupDecode = .direct ∧ (11 : GroupIx).val = (11#4).toNat) := by
  decide
theorem witness_TimerLoadsRecomputeThePeriods :
    Instr.timAHi 1#8 ∈ [.timAHi 1#8, .timALo 1#8, .timB 1#8] ∧ Instr.timALo 1#8 ∈ [.timAHi 1#8, .timALo 1#8, .timB 1#8] ∧
      Instr.timB 1#8 ∈ [.timAHi 1#8, .timALo 1#8, .timB 1#8] := by decide
theorem witness_ExternalAddressWritesReloadTheLatch :
    Instr.extAddr0 1#8 ∈ [.extAddr0 1#8, .extAddr1 1#8, .extAddr2 1#8] ∧
      Instr.extAddr1 1#8 ∈ [.extAddr0 1#8, .extAddr1 1#8, .extAddr2 1#8] ∧
      Instr.extAddr2 0x81#8 ∈ [.extAddr0 0x81#8, .extAddr1 0x81#8, .extAddr2 0x81#8] := by decide
theorem witness_TimerTicksSetTheirFlags :
    (Instr.hostTickA = .hostTickA ∧ 0 = 0) ∧ (Instr.hostTickB = .hostTickB ∧ 1 = 1) := by decide
theorem witness_IrqChangesOnlyByTimersAndIsReported :
    ∃ t, exec .hostTickA { s0 with enable := 5#8 } = .next t ∧ t.irqstate ≠ s0.irqstate :=
  ⟨_, rfl, by decide +kernel⟩
theorem witness_WriteRomStoresItsBytes :
    (⟨4, [(2, 1#8)]⟩ : Rom).wf = true ∧ 3 < 8388608 ∧ (2 ≤ 3 ∧ 3 < 2 + [7#8, 8#8].length ∧ 3 < 4) := by decide
theorem witness_StartEstablishesAnInstance : s0.config.startAllocOk = true := rfl
theorem witness_HostSettingsChangeOnlyByHostOperations : ∃ t, exec (.fmTl 0#2 0#4 1#8) s0 = .next t := ⟨_, rfl⟩
theorem witness_UpdateRunsTheSelectedRowsInOrder :
    ∃ t u, exec (.hostUpdate 1) fourSines = .next t ∧
      u = [0, 1, 2, 3, 4, 5, 6, 7, 8, 9, 10, 11].foldl renderRows
        { fourSines with mixbuf := List.replicate 1 ⟨0, 0, 0, 0⟩, accbuf := List.replicate 1 ⟨0, 0, 0, 0⟩ } :=
  ⟨_, _, rfl, rfl⟩
theorem witness_ResetIsIdempotentAndInactiveSlotsAreSilent :
    (∃ t, exec .hostReset fourSines = .next t) ∧ ∀ i : SlotIx, (s3.slot i).active = false :=
  ⟨⟨_, rfl⟩, by decide +kernel⟩
theorem witness_MutedAndGatedSlotsDoNotMove :
    (∃ t, exec (.hostUpdate 1) (fourSines.setGroup 0 ⟨0#2, false, true⟩) = .next t) ∧
      ((fourSines.setGroup 0 ⟨0#2, false, true⟩).group 0).muted = true ∧
      (((fourSines.modSlot 0 ({ · with active := false })).group 0).sync = 0#2 ∧
        ((fourSines.modSlot 0 ({ · with active := false })).slot (slotIx 0 0)).active = false) ∧ groupOf 36 = 0 :=
  ⟨⟨_, rfl⟩, by decide +kernel⟩
theorem witness_OnlyAKeyOnMakesASlotSound :
    ∃ t, exec (.fmKey 0#2 0#4 1#8) s0 = .next t ∧ (s0.slot 36).active = false ∧ (t.slot 36).active = true :=
  ⟨_, rfl, by decide +kernel⟩
theorem witness_SerialAlgorithmRowsRunTheirSequences : (⟨0, .a⟩ : Unit4) = ⟨fourSines.pos.group, .a⟩ := rfl
theorem witness_ParallelAlgorithmRowsRunTheirSequences : (⟨0, .a⟩ : Unit4) = ⟨fourSines.pos.group, .a⟩ := rfl
theorem witness_PairAlgorithmRowsRunTheirSequences :
    (⟨11, .b⟩ : Unit4) = ⟨{ s0 with pos := ⟨11, .b⟩ }.pos.group, { s0 with pos := ⟨11, .b⟩ }.pos.pair⟩ := rfl
theorem witness_ThreeOperatorRowsRunTheirSequences : (⟨0, .a⟩ : Unit4) = ⟨fourSines.pos.group, .a⟩ := rfl
theorem witness_SyncThreeRowRunsFourVoices : (11 : GroupIx) = { s0 with pos := ⟨11, .b⟩ }.pos.group := rfl
theorem witness_OperatorsFollowTheFourSteps :
    ∃ t1 x1 x2, t1 = updateLfo tc (updateEnvelope (sounding 128)) ∧ x1 = (t1.fbMod0.toInt + t1.fbMod1.toInt).tdiv 2 ∧
      x2 = (-32768 : Int) * 2 ^ 8 * [16, 8, 4, 2, 1, 32, 64, 128].getD t1.feedback.toNat 0 := ⟨_, _, _, rfl, rfl, rfl⟩

/-- A slot at the ends of its ranges. -/
theorem goodSlot_top : GoodSlot { sounding 0 with lfoAmplitude := 65536 } :=
  ⟨by decide, by decide, by decide⟩

theorem witness_OperatorResultsAreSixteenBit : GoodConfig Config.default ∧ GoodSlot { sounding 0 with lfoAmplitude := 65536 } :=
  ⟨goodConfig_default, goodSlot_top⟩
theorem witness_SetFeedbackStoresAQuarterOfTheProduct :
    (∃ q : Int, q = ((-65536) * 256 * [0, 1, 2, 4, 8, 16, 32, 64].getD Slot.reset.feedback.toNat 0).tdiv 4) ∧
      ((-65536 : Int) ≤ -65536 ∧ (-65536 : Int) ≤ 65536) ∧ ((-65536 : Int) ≤ 65536 ∧ (65536 : Int) ≤ 65536) ∧
      Slot.reset.feedback = 0#3 := ⟨⟨_, rfl⟩, by decide⟩
theorem witness_SlotVolumeIsTheShiftedProduct :
    GoodConfig Config.default ∧ GoodSlot { sounding 0 with lfoAmplitude := 65536 } ∧ GoodSlot Slot.reset :=
  ⟨goodConfig_default, goodSlot_top, by decide, by decide, by decide⟩
theorem witness_GainTablesAreTruncatedExponentials : 255 < 256 ∧ 127 < 128 := by decide
theorem witness_KeycodesAndRatesFollowTheirRules :
    (sounding 0).waveform ≠ 7#3 ∧ (sounding 0).fns.toNat < 0x780 ∧
      ¬({ sounding 0 with fns := 0x780#12 } : Slot).fns.toNat < 0x780 ∧
      ({ sounding 0 with waveform := 7#3, fns := 0x0FF#12 } : Slot).waveform = 7#3 ∧
      ({ sounding 0 with waveform := 7#3, fns := 0xCFF#12 } : Slot).fns.toNat % 2048 < 0x500 := by decide
/-- A rate of exactly 4, in an attack and in DECAY1. -/
theorem witness_RatesGiveTheirStepsAndZeroRatesHold_sweep :
    ∃ lut lut' : Nat → PosFrac, 4 ≤ effectiveRate tc { sounding 0 with ar := 2#5 } .attack ∧
      255 = (if EnvState.attack = .decay1 then (sounding 0).d1l.toNat * 16 else 255) ∧
      lut = (if EnvState.attack = .attack ∨ EnvState.attack = .release then lutAR tc else lutDC tc) ∧
      4 ≤ effectiveRate tc { sounding 0 with d1r := 2#5 } .decay1 ∧
      lut' = (if EnvState.decay1 = .attack ∨ EnvState.decay1 = .release then lutAR tc else lutDC tc) :=
  ⟨_, _, by decide +kernel, by decide, rfl, by decide +kernel, rfl⟩
/-- The rates of a slot with `ar = d1r = d2r = rr = 0` and keyscale 0, and a slot in each state with those steps. -/
theorem witness_RatesGiveTheirStepsAndZeroRatesHold (e : EnvState) :
    effectiveRate tc (sounding 0) e < 4 ∧
      let u : Slot := { sounding 0 with envState := e }
      GoodSlot u ∧ u.envState = e ∧ u.envStepAttack = envStepOf tc (sounding 0) .attack ∧
        u.envStepDecay1 = envStepOf tc (sounding 0) .decay1 ∧ u.envStepDecay2 = envStepOf tc (sounding 0) .decay2 ∧
        u.envStepRelease = envStepOf tc (sounding 0) .release := by
  unfold GoodSlot
  cases e <;> decide +kernel
theorem witness_EnvelopeTicksByState :
    Slot.reset.envState = .attack ∧ ({ Slot.reset with envState := .decay1 } : Slot).envState = .decay1 ∧
      (sounding 0).envState = .decay2 ∧ ({ Slot.reset with envState := .release } : Slot).envState = .release := by decide
/-- The attack of TC's rate 63 takes one tick, one with a table entry of 255 samples takes 160. -/
theorem witness_AttackReachesTheTopExactly :
    (33423360 = envStepOf tc { sounding 0 with ar := 31#5 } .attack ∧ 0 < 33423360 ∧
      1 = (160 * 65536 + 33423360 - 1) / 33423360) ∧
    65536 = envStepOf { tc with lutAR := [(63, ⟨254, 0⟩)] } { sounding 0 with ar := 31#5 } .attack ∧ 0 < 65536 ∧
      160 = (160 * 65536 + 65536 - 1) / 65536 := by decide +kernel
theorem witness_ReleaseEndsTheSlot :
    let t : Slot := { sounding 0 with envState := .release, envStepRelease := 65536 }
    t.envState = .release ∧ 0 < t.envStepRelease ∧ 0 ≤ t.volume ∧ t.volume ≤ 255 * t.envStepRelease ∧ 0 < 255 := by
  decide
theorem witness_UnmodulatedStepIsTheExactQuotient :
    (∃ p m : Nat, (sounding 0).lfoPhasemod = 2 ^ 53 ∧
      p = (if (sounding 0).block.toNat < 8 then 2 ^ (8 + (sounding 0).block.toNat) else 2 ^ ((sounding 0).block.toNat - 8)) ∧
      m = (if (sounding 0).multiple.toNat = 0 then 1 else 2 * (sounding 0).multiple.toNat)) ∧
    (sounding 0).waveform ≠ 7#3 ∧ (detuneAt tc (sounding 0).detune (keycode (sounding 0))).num = 0 ∧
    ({ sounding 0 with waveform := 7#3 } : Slot).waveform = 7#3 :=
  ⟨⟨_, _, rfl, rfl, rfl⟩, by decide +kernel⟩
theorem witness_PcmSamplesAreAssembledFromTheirBytes :
    Slot.reset.bits = .eight ∧ (0x80#8 : Byte) = memRead ⟨3, [(0, 0x80#8)]⟩ (Slot.reset.startaddr.toNat + 0) ∧
      ({ Slot.reset with bits := .twelve } : Slot).bits = .twelve ∧
      (0x80#8 : Byte) = memRead ⟨3, [(0, 0x80#8)]⟩ (Slot.reset.startaddr.toNat + 3 * 0) ∧
      (0xFF#8 : Byte) = memRead ⟨3, [(0, 0x80#8)]⟩ (Slot.reset.startaddr.toNat + 3 * 0 + 1) ∧
      (0xFF#8 : Byte) = memRead ⟨3, [(0, 0x80#8)]⟩ (Slot.reset.startaddr.toNat + 3 * 0 + 2) := by decide +kernel
/-- Both address modes, at the first sample and at the end address. -/
theorem witness_UnitStepPlaysTheSamplesInOrder :
    (let t : Slot := { sounding 0 with step := 65536#32, endaddr := 3#23 };
      0 = (if tc.pcmAddrMode = .relative then 0 else t.startaddr.toNat) ∧ t.step = 65536#32 ∧
        t.loopDirection = .forward ∧ t.stepptr = BitVec.ofNat 64 (0 * 65536) ∧ 0 + 0 ≤ t.endaddr.toNat ∧
        0 + 3 ≤ t.endaddr.toNat ∧ t.bits = .eight) ∧
    (let t : Slot := { sounding 5 with step := 65536#32, startaddr := 5#23, endaddr := 8#23, bits := .twelve };
      5 = (if ({ tc with pcmAddrMode := .absolute } : Config).pcmAddrMode = .relative then 0 else t.startaddr.toNat) ∧
        t.step = 65536#32 ∧ t.loopDirection = .forward ∧ t.stepptr = BitVec.ofNat 64 (5 * 65536) ∧
        5 + 3 ≤ t.endaddr.toNat ∧ t.bits = .twelve) := by decide
/-- Just within and just past the end, the second with the two snaps, and both sides of the loop point in reverse. -/
theorem witness_ForwardLoopWrapsAndReverseTurns :
    (let t : Slot := { Slot.reset with endaddr := 10#23, loopaddr := 8#23, stepptr := BitVec.ofNat 64 (10 * 65536 + 65535) };
      t.loopDirection = .forward ∧ t.stepptr.toInt / 65536 ≤ t.endaddr.toNat) ∧
    (let t : Slot := { Slot.reset with endaddr := 10#23, loopaddr := 8#23, stepptr := BitVec.ofNat 64 (11 * 65536) };
      t.loopDirection = .forward ∧ t.altloop = false ∧ (t.endaddr.toNat : Int) < t.stepptr.toInt / 65536 ∧
        t.loopaddr.toNat ≤ t.endaddr.toNat) ∧
    (let t : Slot := { Slot.reset with
        loopDirection := .reverse, loopaddr := 8#23, stepptr := BitVec.ofNat 64 (8 * 65536) };
      t.loopDirection = .reverse ∧ (t.loopaddr.toNat : Int) ≤ t.stepptr.toInt / 65536) ∧
    (let t : Slot := { Slot.reset with
        loopDirection := .reverse, loopaddr := 8#23, stepptr := BitVec.ofNat 64 (8 * 65536 - 1) };
      t.loopDirection = .reverse ∧ t.stepptr.toInt / 65536 < t.loopaddr.toNat) := by decide
theorem witness_AlternateLoopTurnsAtTheEnd :
    let t : Slot := { Slot.reset with altloop := true, endaddr := 10#23, stepptr := BitVec.ofNat 64 (11 * 65536) }
    t.loopDirection = .forward ∧ t.altloop = true ∧ (t.endaddr.toNat : Int) < t.stepptr.toInt / 65536 := by decide

/-- A sounding PCM state: one sample to render, memory behind slot 0. -/
def onePcm (acc : Bool) : State :=
  { s3.setSlot 0 { sounding 0 with waveform := 7#3, accon := acc } with
    mixbuf := [Frame.zero], accbuf := [Frame.zero], rom := ⟨1, [(0, 0x40#8)]⟩ }

theorem witness_PcmTickMixesThenAdvances (acc : Bool) :
    ∃ t smp f v, t = pcmTick 0 0 (onePcm acc) ∧
      v = updateLfo (onePcm acc).config (updateEnvelope ((onePcm acc).slot 0)) ∧
      smp = pcmSample (onePcm acc).rom ((onePcm acc).slot 0)
        (sampleIndex (onePcm acc).config ((onePcm acc).slot 0) ((onePcm acc).slot 0).stepptr.toInt) ∧
      f = (if v.tl = 0#7 then 2 else v.tl.toNat * 2) ∧
      (Frame.ch0, v.ch0Level) ∈
        [(Frame.ch0, v.ch0Level), (Frame.ch1, v.ch1Level), (Frame.ch2, v.ch2Level), (Frame.ch3, v.ch3Level)] ∧
      v.accon = acc ∧ (onePcm acc).accbuf[0]? = some Frame.zero ∧ (onePcm acc).mixbuf[0]? = some Frame.zero :=
  ⟨_, _, _, _, rfl, rfl, rfl, rfl, by simp, by cases acc <;> decide +kernel, rfl, rfl⟩

/-- A good state in the middle of a session: a muted group, set end markers, a loaded timer, slots at full volume, PCM
memory, channels at the ends of the 18-bit range. -/
def busy : State :=
  { (fourSines.setGroup 5 ⟨3#2, true, true⟩) with
    rom := ⟨4, [(1, 0#8), (3, 1#8)]⟩, timerA := 1023#10, timerAPeriod := 384, endStatus := 0x0FFF#16, irqstate := 1#2
    config := Config.default, accbuf := [⟨131071#32, BitVec.ofInt 32 (-131072), 0#32, 0#32⟩], input := [.call (.update 1)] }

theorem goodState_busy : GoodState busy := by
  refine ⟨by decide +kernel, goodConfig_default, ?_, ?_, by decide +kernel, by decide +kernel, rfl, fun k hk => ?_, ?_⟩
  · unfold GoodSlot; decide +kernel
  · unfold SamePcmFields; decide +kernel
  · by_cases h : k < 16
    · obtain rfl | rfl | rfl | rfl : k = 12 ∨ k = 13 ∨ k = 14 ∨ k = 15 := by omega
      all_goals rfl
    · exact BitVec.getLsbD_of_ge _ _ (by omega)
  · intro f hf
    obtain rfl : f = _ := List.mem_singleton.mp hf
    unfold GoodAccFrame Eighteen; decide

theorem witness_MixBuffersStayInRangeAfterEachGroup :
    GoodState busy ∧ 12 ≤ 12 ∧
      ∃ u, u = ([0, 1, 2, 3, 4, 5, 6, 7, 8, 9, 10, 11].take 12).foldl renderGroup (busy.openCall 1) :=
  ⟨goodState_busy, le_rfl, _, rfl⟩
theorem witness_TablesKeepWhatTheSpecFixes :
    (0#2 = 0#2 ∨ 7#3 = 0#3) ∧ (3#2 = 0#2 ∨ 0#3 = 0#3) ∧ (3#2 = 0#2 ∨ 0 = 0) ∧ 4#3 ∈ [0#3, 4#3] ∧
      3#3 ∈ [1#3, 2#3, 3#3] ∧ 5#3 ∈ [5#3, 6#3, 7#3] ∧ 13 ≤ (13#4).toNat := by decide
theorem witness_EveryStepKeepsTheStateGood : ∃ t, GoodState busy ∧ step busy = .next t := ⟨_, goodState_busy, rfl⟩

end Sys2Proof.Tests
end

section
/-! SUPPORT. What an instruction can do to the state: one relation for the ordinary instructions, and the five host
operations that reach further. -/

namespace Sys2Proof.Machine

open Sys2Proof Host

/-! ### One slot -/

theorem samePcmFields_refl (t : Slot) : SamePcmFields t t := ⟨rfl, rfl, rfl, rfl, rfl, rfl, rfl, rfl⟩

theorem samePcmFields_trans {t u v : Slot} (h : SamePcmFields t u) (h' : SamePcmFields u v) : SamePcmFields t v := by
  unfold SamePcmFields at *
  simp_all

/-- The PCM fields are register-backed: a slot that keeps its registers keeps them (R33, R34). -/
theorem samePcmFields_of_sameRegisters {t u : Slot} (h : SameRegisters t u) : SamePcmFields t u := by
  rw [← h]
  exact samePcmFields_refl u

/-- What an ordinary instruction may do to a slot: the ranges stay (R36), the PCM fields of a `frozen` slot stay (R34),
and only a `keyed` slot becomes active (R37). -/
structure SlotMoved (c : Config) (frozen keyed : Prop) (t u : Slot) : Prop where
  good : GoodConfig c → GoodSlot t → GoodSlot u
  pcm : frozen → SamePcmFields t u
  active : u.active = true → t.active = true ∨ keyed

section SlotMoved

variable {c : Config} {frozen frozen' keyed keyed' : Prop} {t u v : Slot}

theorem slotMoved_refl (t : Slot) : SlotMoved c frozen keyed t t :=
  ⟨fun _ h => h, fun _ => samePcmFields_refl t, .inl⟩

theorem SlotMoved.trans (h : SlotMoved c frozen keyed t u) (h' : SlotMoved c frozen keyed u v) :
    SlotMoved c frozen keyed t v where
  good hc ht := h'.good hc (h.good hc ht)
  pcm hf := samePcmFields_trans (h.pcm hf) (h'.pcm hf)
  active hv := (h'.active hv).elim h.active .inr

theorem SlotMoved.mono (h : SlotMoved c frozen keyed t u) (hf : frozen' → frozen) (hk : keyed → keyed') :
    SlotMoved c frozen' keyed' t u :=
  ⟨h.good, fun hp => h.pcm (hf hp), fun ha => (h.active ha).imp_right hk⟩

theorem SlotKept.slotMoved (h : SlotKept c t u) : SlotMoved c frozen keyed t u :=
  ⟨h.2.1, fun _ => samePcmFields_of_sameRegisters h.1, fun ha => .inl (h.2.2 ha)⟩

/-- A key-on starts the volume and the amplitude LFO within their ranges and keeps every register field (R171). -/
theorem slotMoved_keyOnSlot (hk : keyed) : SlotMoved c frozen keyed t (keyOnSlot c t) where
  good hc _ := by
    obtain ⟨-, -, -, -, hamp, -, -, -, -, -, -, -, hvol, -⟩ := keyOnSlot_keyedOn c t
    unfold GoodSlot
    rw [hvol, hamp]
    exact ⟨by decide, by decide, alfoAt_le hc _ (by decide)⟩
  pcm _ := samePcmFields_of_sameRegisters (keyOnSlot_keyedOn c t).1
  active _ := .inr hk

theorem slotMoved_keyOffSlot : SlotMoved c frozen keyed t (keyOffSlot t) := by
  unfold keyOffSlot
  split
  · exact ⟨fun _ h => h, fun _ => samePcmFields_refl t, .inl⟩
  · exact slotMoved_refl t

end SlotMoved

/-! ### The whole state -/

/-- The periods are those of the loaded timers (R212). -/
def PublishedPeriods (s : State) : Prop :=
  s.timerAPeriod = 384 * (1024 - s.timerA.toNat) ∧ s.timerBPeriod = 384 * 16 * (256 - s.timerB.toNat)

/-- What an instruction may do to the state that neither sets a host setting nor resets: no host setting changes, every
slot moves as `SlotMoved` says, and the invariants of the periods, the busy flag, the unused end markers and the ACC
buffer stay. A slot is frozen when no PCM selector names it (R34, R108). -/
structure Ordinary (keyed : SlotIx → Prop) (s t : State) : Prop where
  config : t.config = s.config
  rom : t.rom = s.rom
  muted : ∀ g, (t.group g).muted = (s.group g).muted
  slot : ∀ i : SlotIx, SlotMoved s.config (i.val % 4 ≠ 0) (keyed i) (s.slot i) (t.slot i)
  periods : PublishedPeriods s → PublishedPeriods t
  busyFlag : t.busyFlag = s.busyFlag
  marks : ∀ k, 12 ≤ k → s.endStatus.getLsbD k = false → t.endStatus.getLsbD k = false
  accbuf : (∀ f ∈ s.accbuf, GoodAccFrame f) → ∀ f ∈ t.accbuf, GoodAccFrame f

/-- The parts of the state that `Ordinary` speaks of are untouched, but that the timers may be loaded. -/
structure Aside (s t : State) : Prop where
  config : t.config = s.config
  rom : t.rom = s.rom
  groups : t.groups = s.groups
  slots : t.slots = s.slots
  periods : PublishedPeriods s → PublishedPeriods t
  busyFlag : t.busyFlag = s.busyFlag
  endStatus : t.endStatus = s.endStatus
  accbuf : t.accbuf = s.accbuf

section Ordinary

variable {keyed : SlotIx → Prop} {s t u : State}

theorem Aside.ordinary (h : Aside s t) : Ordinary keyed s t where
  config := h.config
  rom := h.rom
  muted g := by unfold State.group; rw [h.groups]
  slot i := by unfold State.slot; rw [h.slots]; exact slotMoved_refl _
  periods := h.periods
  busyFlag := h.busyFlag
  marks k _ hk := by rw [h.endStatus]; exact hk
  accbuf ha := by rw [h.accbuf]; exact ha

theorem ordinary_refl (s : State) : Ordinary keyed s s :=
  Aside.ordinary ⟨rfl, rfl, rfl, rfl, id, rfl, rfl, rfl⟩

theorem Ordinary.trans (h : Ordinary keyed s t) (h' : Ordinary keyed t u) : Ordinary keyed s u where
  config := h'.config.trans h.config
  rom := h'.rom.trans h.rom
  muted g := (h'.muted g).trans (h.muted g)
  slot i := (h.slot i).trans (h.config ▸ h'.slot i)
  periods hp := h'.periods (h.periods hp)
  busyFlag := h'.busyFlag.trans h.busyFlag
  marks k hk hs := h'.marks k hk (h.marks k hk hs)
  accbuf ha := h'.accbuf (h.accbuf ha)

theorem Rendered.ordinary {r : SlotIx → Prop} (h : Rendered r s t) : Ordinary keyed s t := by
  have hconfig := h.config
  have hrom := h.rom
  have hgroup := h.group
  obtain ⟨frame, -, -, kept, -, -, marks, acc⟩ := h
  have field {α : Type} (f : State → α) := congrArg f frame
  exact {
    config := hconfig
    rom := hrom
    muted := fun g => by rw [hgroup g]
    slot := fun i => (kept i).slotMoved
    periods := fun hp => by
      unfold PublishedPeriods
      rwa [show t.timerAPeriod = s.timerAPeriod from field (·.timerAPeriod),
        show t.timerBPeriod = s.timerBPeriod from field (·.timerBPeriod),
        show t.timerA = s.timerA from field (·.timerA), show t.timerB = s.timerB from field (·.timerB)]
    busyFlag := field (·.busyFlag)
    marks := fun k hk hs => by
      by_contra ht
      rcases marks k (by simpa using ht) with h1 | ⟨i, -, hi⟩
      · simp [hs] at h1
      · omega
    accbuf := acc }

/-! ### Single operations -/

theorem ordinary_setReg (s : State) (p : Port) (d : Byte) : Ordinary keyed s (s.setReg p d) :=
  Aside.ordinary ⟨rfl, rfl, rfl, rfl, id, rfl, rfl, rfl⟩

theorem ordinary_returnByte (s : State) (v : Byte) : Ordinary keyed s (s.returnByte v) :=
  Aside.ordinary ⟨rfl, rfl, rfl, rfl, id, rfl, rfl, rfl⟩

theorem ordinary_noteIrq (s : State) (b : Bool) : Ordinary keyed s (s.noteIrq b) :=
  Aside.ordinary (by constructor <;> simp [PublishedPeriods])

theorem ordinary_timerReset (s : State) (k : Nat) (d : Byte) : Ordinary keyed s (s.timerReset k d) :=
  Aside.ordinary (by constructor <;> simp [PublishedPeriods])

theorem ordinary_timerTick (s : State) (k : Nat) : Ordinary keyed s (s.timerTick k) :=
  Aside.ordinary (by unfold State.timerTick; constructor <;> simp [PublishedPeriods])

/-- A load of the timers publishes their periods (R212). -/
theorem ordinary_loadTimers (s : State) (p : Port) (d : Byte) (a : BitVec 10) (b : Byte) :
    Ordinary keyed s { s.setReg p d with timerA := a, timerB := b }.recomputePeriods :=
  Aside.ordinary ⟨rfl, rfl, rfl, rfl, fun _ => ⟨rfl, rfl⟩, rfl, rfl, rfl⟩

/-- A write of the external cursor reloads the latch (R217). -/
theorem ordinary_moveCursor (s : State) (p : Port) (d : Byte) (a : Addr) (b : Bool) :
    Ordinary keyed s { s.setReg p d with extAddress := a, extRw := b }.reloadLatch :=
  Aside.ordinary ⟨rfl, rfl, rfl, rfl, id, rfl, rfl, rfl⟩

theorem ordinary_emit (s : State) (e : Event) : Ordinary keyed s (s.emit e) :=
  Aside.ordinary ⟨rfl, rfl, rfl, rfl, id, rfl, rfl, rfl⟩

theorem ordinary_advanceExt (s : State) : Ordinary keyed s s.advanceExt :=
  Aside.ordinary ⟨rfl, rfl, rfl, rfl, id, rfl, rfl, rfl⟩

theorem ordinary_setGroup (s : State) (g : GroupIx) (x : Group) (hx : x.muted = (s.group g).muted) :
    Ordinary keyed s (s.setGroup g x) where
  config := rfl
  rom := rfl
  muted h := by
    rw [group_setGroup]
    split
    · next hg => rw [hx, hg]
    · rfl
  slot i := slotMoved_refl _
  periods := id
  busyFlag := rfl
  marks _ _ := id
  accbuf := id

theorem ordinary_modSlot (s : State) (i : SlotIx) (f : Slot → Slot)
    (hf : SlotMoved s.config (i.val % 4 ≠ 0) (keyed i) (s.slot i) (f (s.slot i))) :
    Ordinary keyed s (s.modSlot i f) where
  config := rfl
  rom := rfl
  muted _ := rfl
  slot j := by
    rw [modSlot_eq, slot_setSlot]
    split
    · next hj => rw [hj]; exact hf
    · exact slotMoved_refl _
  periods := id
  busyFlag := rfl
  marks _ _ := id
  accbuf := id

/-- A cleared end marker sets none (R171). -/
theorem ordinary_clearMark (s : State) (i : SlotIx) : Ordinary keyed s (s.setEndStatus i false) where
  config := by simp
  rom := by simp
  muted g := by simp [State.group]
  slot j := by simpa [State.slot] using slotMoved_refl _
  periods := by simp [PublishedPeriods]
  busyFlag := by simp
  marks k _ hk := by
    unfold State.setEndStatus
    split
    · simp [getLsbD_withBit, hk]
    · exact hk
  accbuf := by simp

/-! ### Register writes -/

/-- A key write moves the slot; only a key-on makes it active (R171). -/
theorem ordinary_putKey (d : Byte) (i : SlotIx) (s : State) (hk : d.getLsbD 0 = true → keyed i) :
    Ordinary keyed s (putKey d i s) := by
  unfold putKey
  split
  · next hd => exact (ordinary_modSlot s i _ (slotMoved_keyOnSlot (hk hd))).trans (ordinary_clearMark _ i)
  · exact ordinary_modSlot s i _ slotMoved_keyOffSlot

theorem ordinary_writeTargets {w : SlotIx → State → State} {g : GroupIx} : ∀ {banks : List Bank} (s : State),
    (∀ b ∈ banks, ∀ s', Ordinary keyed s' (w (slotIx b g) s')) → Ordinary keyed s (writeTargets w g banks s)
  | [], s, _ => ordinary_refl s
  | b :: banks, s, hw =>
    (hw b (by simp) s).trans (ordinary_writeTargets (banks := banks) _ fun b' hb' => hw b' (by simp [hb']))

/-- An FM data write is ordinary when its effect on each slot that it reaches is (R141, R142). -/
theorem ordinary_fmWrite (sync : Bool) (bank : BitVec 2) (n : Nibble) (d : Byte) (w : SlotIx → State → State) (s : State)
    (hw : ∀ g, fmTab n = some g → ∀ b ∈ s.targets sync bank.toFin g, ∀ s', Ordinary keyed s' (w (slotIx b g) s')) :
    Ordinary keyed s (fmWrite sync bank n d w s) := by
  unfold fmWrite
  dsimp only
  split
  · exact ordinary_setReg _ _ _
  · next g hg => exact (ordinary_setReg _ _ _).trans (ordinary_writeTargets _ (hw g hg))

/-- An FM parameter other than the key: fields outside the PCM set and the dynamic state (R172 to R185). -/
theorem ordinary_fmWrite_put (sync : Bool) (bank : BitVec 2) (n : Nibble) (d : Byte) (f : Slot → Slot) (s : State)
    (hf : ∀ c t, SlotMoved c True False t (f t)) :
    Ordinary keyed s (fmWrite sync bank n d (fun i s1 => s1.modSlot i f) s) :=
  ordinary_fmWrite _ _ _ _ _ _ fun _ _ _ _ s' =>
    ordinary_modSlot s' _ f ((hf _ _).mono (fun _ => trivial) False.elim)

/-- A PCM parameter: no slot but one that a PCM selector names is written (R34, R200). -/
theorem ordinary_pcmWrite_put (n : Nibble) (d : Byte) (f : Slot → Slot) (s : State)
    (hf : ∀ c t, SlotMoved c False False t (f t)) : Ordinary keyed s (pcmWrite n d f s) := by
  unfold pcmWrite
  dsimp only
  split
  · exact ordinary_setReg _ _ _
  · next i hi =>
    have hfrozen : i.val % 4 ≠ 0 → False := fun h => h (pcmTab_mod n i hi)
    exact (ordinary_setReg _ _ _).trans (ordinary_modSlot _ i f ((hf _ _).mono hfrozen False.elim))

/-- `TIM_CTRL` sets the enable byte, resets flags and notes the level (R213). -/
theorem ordinary_timCtrl (d : Byte) (h : execTimCtrl d s = .next t) : Ordinary keyed s t := by
  obtain rfl := Outcome.next.inj h
  have hstore : Ordinary keyed s { storeTimer d s with enable := d } :=
    Aside.ordinary ⟨rfl, rfl, rfl, rfl, id, rfl, rfl, rfl⟩
  exact ((hstore.trans (ordinary_timerReset _ 0 d)).trans (ordinary_timerReset _ 1 d)).trans (ordinary_noteIrq _ _)

/-- `EXT_DATA` at most emits its event, then advances the cursor: the memory stays (R81, R216). -/
theorem ordinary_extData (d : Byte) (h : execExtData d s = .next t) : Ordinary keyed s t := by
  obtain rfl := Outcome.next.inj h
  refine Ordinary.trans ?_ (ordinary_advanceExt _)
  split
  · exact ordinary_setReg _ _ _
  · exact (ordinary_setReg _ _ _).trans (ordinary_emit _ _)

/-- `GRP_SYNC` keeps the mute flag of the group it writes (R38, R211). -/
theorem ordinary_grpSync (sel : Nibble) (d : Byte) (h : execGrpSync sel d s = .next t) : Ordinary keyed s t := by
  obtain rfl := Outcome.next.inj h
  split
  · exact ordinary_setReg _ _ _
  · next g _ => exact (ordinary_setReg _ _ _).trans (ordinary_setGroup _ g _ rfl)

/-! ### Calls -/

/-- `update` opens its buffers with zero frames, renders, and closes them (R450). -/
theorem ordinary_update (s : State) (n : Nat) : Ordinary keyed s (s.update n) := by
  have hopen : Ordinary keyed s (s.openCall n) :=
    { ordinary_refl s with
      accbuf := fun _ f hf => by
        rw [accbuf_openCall] at hf
        rw [List.eq_of_mem_replicate hf]
        unfold GoodAccFrame Eighteen
        decide }
  have hclose : ∀ u : State, Ordinary keyed u u.closeCall := fun u =>
    { ordinary_refl u with accbuf := fun _ f hf => absurd hf (List.not_mem_nil) }
  exact (hopen.trans (rendered_renderAll _).ordinary).trans (hclose _)

end Ordinary

/-! ### What an instruction can do -/

/-- A key-on through a valid selector that reaches the slot, directly or mirrored (R142, R171). -/
def KeysOn (i : Instr) (s : State) (ix : SlotIx) : Prop :=
  ∃ bank n d, i = .fmKey bank n d ∧ d.getLsbD 0 = true ∧ selectorValid n = true ∧ reachesFmSlot s bank n ix = true

/-- What `start` resets: the clock set, no memory, nothing muted, no call in progress (R541). -/
def State.atStart (s : State) (clock : PosFrac) : State :=
  { s with
    config := { s.config with clock := clock }
    rom := Rom.empty
    mixbuf := []
    accbuf := []
    pos := RenderPos.idle }.mapGroups fun _ x => { x with muted := false }

/-- What an instruction that runs does: an ordinary effect, or one of the host operations on the memory, the mute flags
and the whole machine. -/
inductive Effect (s : State) : Instr → State → Prop
  | ordinary {i : Instr} {t : State} (h : Ordinary (KeysOn i s) s t) : Effect s i t
  | allocRom (size : Nat) : Effect s (.hostAllocRom size) { s with rom := s.rom.alloc size }
  | writeRom (offset : Nat) (bytes : List Byte) :
      Effect s (.hostWriteRom offset bytes) { s with rom := s.rom.writeBytes offset bytes }
  | mute (mask : BitVec 12) :
      Effect s (.hostMute mask) (s.mapGroups fun g x => { x with muted := mask.getLsbD g.val })
  | reset : Effect s .hostReset (s.resetItems.noteIrq s.irq)
  | start (clock : PosFrac) : Effect s (.hostStart clock) ((s.atStart clock).resetItems.noteIrq s.irq)

/-- A key write reaches the slots that the rules say (R142). -/
theorem ordinary_fmKey (bank : BitVec 2) (n : Nibble) (d : Byte) (s : State) :
    Ordinary (KeysOn (.fmKey bank n d) s) s (fmWrite true bank n d (putKey d) s) := by
  refine ordinary_fmWrite _ _ _ _ _ _ fun g hg b hb s' => ordinary_putKey _ _ _ fun hd => ?_
  have hn : selectorValid n = true := by
    by_contra hn
    simp [fmTab_invalid n (by simpa using hn)] at hg
  obtain ⟨g', hg', hv⟩ := fmTab_valid n hn
  obtain rfl : g = g' := Option.some.inj (hg.symm.trans hg')
  exact ⟨bank, n, d, rfl, hd, hn, (fmHits_iff s true bank n g hv (slotIx b g)).mp
    ⟨groupOf_slotIx b g, b, hb, bankOf_slotIx b g⟩⟩

theorem Effect.of_next {i : Instr} {s t u : State} (h : (.next u : Answer) = .next t) (e : Effect s i u) :
    Effect s i t :=
  Outcome.next.inj h ▸ e

theorem effect_hostStart (clock : PosFrac) {s t : State} (h : execHostStart clock s = .next t) :
    Effect s (.hostStart clock) t := by
  unfold execHostStart at h
  split at h
  · exact .of_next h (.start clock)
  · cases h

/-- Every instruction that runs has one of the effects: the case analysis over the instruction set. -/
theorem effect_of_exec {i : Instr} {s t : State} (h : exec i s = .next t) : Effect s i t := by
  cases i with
  | portLatchFm0 | portLatchFm1 | portLatchFm2 | portLatchFm3 | portLatchPcm | portLatchTim | portUnusedA | portUnusedB
  | portUnusedE | portUnusedF | fmInvalidSel | pcmInvalidSel | timReserved =>
    exact .of_next h (.ordinary (ordinary_setReg s _ _))
  | fmKey bank n d => exact .of_next h (.ordinary (ordinary_fmKey bank n d s))
  | fmLfofreq | fmLfowave | fmMuldt | fmTl | fmAr | fmD1r | fmD2r | fmRrd1l | fmFnslo | fmFnshi | fmWave | fmAlg | fmCh01
  | fmCh23 =>
    exact .of_next h (.ordinary (ordinary_fmWrite_put _ _ _ _ _ s fun _ _ =>
      ⟨fun _ ht => ht, fun _ => ⟨rfl, rfl, rfl, rfl, rfl, rfl, rfl, rfl⟩, .inl⟩))
  | fmReserved => exact .of_next h (.ordinary (ordinary_fmWrite _ _ _ _ _ s fun _ _ _ _ s' => ordinary_refl s'))
  | pcmStart0 | pcmStart1 | pcmStart2 | pcmEnd0 | pcmEnd1 | pcmEnd2 | pcmLoop0 | pcmLoop1 | pcmLoop2 | pcmFormat
  | pcmReserved =>
    exact .of_next h (.ordinary (ordinary_pcmWrite_put _ _ _ s fun _ _ => ⟨fun _ ht => ht, False.elim, .inl⟩))
  | grpSync sel d => exact .ordinary (ordinary_grpSync sel d h)
  | timAHi | timALo | timB => exact .of_next h (.ordinary (ordinary_loadTimers s _ _ _ _))
  | timCtrl d => exact .ordinary (ordinary_timCtrl d h)
  | extAddr0 | extAddr1 | extAddr2 => exact .of_next h (.ordinary (ordinary_moveCursor s _ _ _ _))
  | extData d => exact .ordinary (ordinary_extData d h)
  | readStatus0 | readStatus1 | readUndoc => exact .of_next h (.ordinary (ordinary_returnByte s _))
  | readExtdata => exact .of_next h (.ordinary ((ordinary_advanceExt s).trans (ordinary_returnByte _ _)))
  | hostTickA | hostTickB => exact .of_next h (.ordinary (ordinary_timerTick s _))
  | hostUpdate n => exact .of_next h (.ordinary (ordinary_update s n))
  | hostReset => exact .of_next h .reset
  | hostStart clock => exact effect_hostStart clock h
  | hostAllocRom size => exact .of_next h (.allocRom size)
  | hostWriteRom offset bytes => exact .of_next h (.writeRom offset bytes)
  | hostMute mask => exact .of_next h (.mute mask)
  | alg0_0 | alg0_1 | alg0_2 | alg0_3 | alg0_4 | alg0_5 | alg0_6 | alg0_7 | alg0_8 | alg0_9 | alg0_10 | alg0_11 | alg0_12
  | alg0_13 | alg0_14 | alg0_15 | alg1_0 | alg1_1 | alg1_2 | alg1_3 | alg2_0 | alg2_1 | alg2_2 | alg2_3 | alg2_4 | alg2_5
  | alg2_6 | alg2_7 =>
    exact .of_next h (.ordinary (rendered_renderNetwork _ _ s).ordinary)
  | sync3 => exact .of_next h (.ordinary (rendered_renderVoices s).ordinary)

end Sys2Proof.Machine
end

section
/-! PROOFS. What every step keeps (spec/10_state.md sections 2 and 3), from the effects of the instructions; the end of a
release (spec/43_envelope.md section 3). -/

namespace Sys2Proof.Machine

open Sys2Proof Host

/-! ### The host operations -/

@[simp] theorem rom_mapGroups (s : State) (f : GroupIx → Group → Group) : (s.mapGroups f).rom = s.rom := by
  simpa only using congrArg State.rom (mapGroups_frame s f)

@[simp] theorem config_mapGroups (s : State) (f : GroupIx → Group → Group) : (s.mapGroups f).config = s.config := by
  simpa only using congrArg State.config (mapGroups_frame s f)

@[simp] theorem slots_mapGroups (s : State) (f : GroupIx → Group → Group) : (s.mapGroups f).slots = s.slots := by
  simpa only using congrArg State.slots (mapGroups_frame s f)

@[simp] theorem accbuf_mapGroups (s : State) (f : GroupIx → Group → Group) : (s.mapGroups f).accbuf = s.accbuf := by
  simpa only using congrArg State.accbuf (mapGroups_frame s f)

theorem slot_mapGroups (s : State) (f : GroupIx → Group → Group) (i : SlotIx) : (s.mapGroups f).slot i = s.slot i := by
  simp [State.slot]

theorem slot_reset (s : State) (b : Bool) (i : SlotIx) : (s.resetItems.noteIrq b).slot i = Slot.reset := by
  simp [State.slot, State.resetItems]

theorem rom_reset (s : State) (b : Bool) : (s.resetItems.noteIrq b).rom = s.rom := by
  simp [State.resetItems]

theorem config_reset (s : State) (b : Bool) : (s.resetItems.noteIrq b).config = s.config := by
  simp [State.resetItems]

theorem accbuf_reset (s : State) (b : Bool) : (s.resetItems.noteIrq b).accbuf = s.accbuf := by
  simp [State.resetItems]

/-- `start` resets a state with an empty memory, no buffers, and the old configuration but for the clock (R541). -/
theorem atStart_spec (s : State) (clock : PosFrac) :
    (s.atStart clock).rom = Rom.empty ∧ (s.atStart clock).accbuf = [] ∧
      (s.atStart clock).config = { s.config with clock := clock } := by
  simp [State.atStart]

theorem muted_reset (s : State) (b : Bool) (g : GroupIx) :
    ((s.resetItems.noteIrq b).group g).muted = (s.group g).muted := by
  have h : (s.resetItems.noteIrq b).group g = (s.mapGroups fun _ x => { x with sync := 0#2, pfm := false }).group g := by
    unfold State.group
    rw [groups_noteIrq]
    rfl
  rw [h, group_mapGroups]

/-! ### The good state -/

theorem Ordinary.goodState {keyed : SlotIx → Prop} {s t : State} (h : Ordinary keyed s t) (hs : GoodState s) :
    GoodState t := by
  obtain ⟨rom, config, slots, pcm, timerA, timerB, busy, marks, acc⟩ := hs
  obtain ⟨periodA, periodB⟩ := h.periods ⟨timerA, timerB⟩
  exact ⟨h.rom ▸ rom, h.config ▸ config, fun i => (h.slot i).good config (slots i),
    fun i hi => samePcmFields_trans (pcm i hi) ((h.slot i).pcm hi), periodA, periodB, h.busyFlag.trans busy,
    fun k hk => h.marks k hk (marks k hk), h.accbuf acc⟩

/-- A new memory in canonical form leaves a good state good. -/
theorem GoodState.withRom {s : State} (h : GoodState s) {m : Rom} (hm : m.wf = true) : GoodState { s with rom := m } :=
  ⟨hm, h.2⟩

/-- The groups are no part of the invariant. -/
theorem GoodState.of_groups {s t : State} (h : GoodState s) (ht : { t with groups := s.groups } = s) : GoodState t := by
  rw [← ht] at h
  exact h

/-- The reset table is good whatever the slots, timers and flags were before (R540). -/
theorem goodState_reset (s : State) (b : Bool) (hrom : s.rom.wf = true) (hconfig : GoodConfig s.config)
    (hacc : ∀ f ∈ s.accbuf, GoodAccFrame f) : GoodState (s.resetItems.noteIrq b) := by
  refine ⟨rom_reset s b ▸ hrom, config_reset s b ▸ hconfig, fun i => ?_, fun i _ => ?_, ?_, ?_, ?_, fun k _ => ?_,
    accbuf_reset s b ▸ hacc⟩
  · rw [slot_reset]
    unfold GoodSlot
    decide
  · rw [slot_reset]
    exact samePcmFields_refl _
  · simp [State.resetItems, timerAPeriodOf]
  · simp [State.resetItems, timerBPeriodOf]
  · simp [State.resetItems]
  · simp [State.resetItems]

/-- The clock is no part of the constraints on the tables (R32, R541). -/
theorem goodState_start {s : State} (h : GoodState s) (clock : PosFrac) :
    GoodState ((s.atStart clock).resetItems.noteIrq s.irq) := by
  obtain ⟨hrom, hacc, hconfig⟩ := atStart_spec s clock
  refine goodState_reset _ _ (hrom ▸ wf_empty) ?_ (by simp [hacc])
  rw [hconfig]
  exact h.2.1

theorem Effect.goodState {i : Instr} {s t : State} (h : Effect s i t) (hs : GoodState s) : GoodState t := by
  cases h with
  | ordinary h => exact h.goodState hs
  | allocRom size => exact hs.withRom (wf_alloc size hs.1)
  | writeRom offset bytes => exact hs.withRom (wf_writeBytes offset bytes hs.1)
  | mute mask => exact hs.of_groups (mapGroups_frame s _)
  | reset =>
    obtain ⟨rom, config, -, -, -, -, -, -, acc⟩ := hs
    exact goodState_reset s _ rom config acc
  | start clock => exact goodState_start hs clock

/-- Settles O58: a step is an instruction on the state with the queue's head taken off, and each of its effects keeps
the state good. -/
theorem everyStepKeepsTheStateGood : Obligations.EveryStepKeepsTheStateGood := by
  unfold Obligations.EveryStepKeepsTheStateGood
  intro s t hs h
  unfold step at h
  split at h
  · exact Outcome.next.inj h ▸ hs
  · next op rest _ =>
    have hrest : GoodState { s with input := rest } := hs
    exact (effect_of_exec h).goodState hrest

/-- Settles O15: no ordinary instruction writes a PCM field of a frozen slot; the memory and the mute flags are no
slots; `reset` and `start` put the reset slot there. -/
theorem pcmFieldsOfUnreachableSlotsStay : Obligations.PcmFieldsOfUnreachableSlotsStay := by
  unfold Obligations.PcmFieldsOfUnreachableSlotsStay
  intro i s t ix h hix
  cases effect_of_exec h with
  | ordinary h => exact .inl ((h.slot ix).pcm hix)
  | allocRom | writeRom => exact .inl (samePcmFields_refl _)
  | mute => exact .inl (by rw [slot_mapGroups]; exact samePcmFields_refl _)
  | reset => exact .inr ⟨.inl rfl, by rw [slot_reset]; exact samePcmFields_refl _⟩
  | start clock => exact .inr ⟨.inr ⟨clock, rfl⟩, by rw [slot_reset]; exact samePcmFields_refl _⟩

/-- Settles O28, by the effects: each host operation changes the one setting that it names. -/
theorem hostSettingsChangeOnlyByHostOperations : Obligations.HostSettingsChangeOnlyByHostOperations := by
  unfold Obligations.HostSettingsChangeOnlyByHostOperations
  intro i s t h
  have memory : ∀ {u : State}, u.rom = s.rom →
      u.rom.size = s.rom.size ∧ ∀ a : Int, memRead u.rom a = memRead s.rom a := fun hu => by simp [hu]
  cases effect_of_exec h with
  | ordinary h => exact ⟨.inr (.inr (.inr (memory h.rom))), .inr (.inr h.muted), .inr h.config⟩
  | allocRom size => exact ⟨.inl ⟨size, rfl⟩, .inr (.inr fun _ => rfl), .inr rfl⟩
  | writeRom offset bytes => exact ⟨.inr (.inl ⟨offset, bytes, rfl⟩), .inr (.inr fun _ => rfl), .inr rfl⟩
  | mute mask =>
    exact ⟨.inr (.inr (.inr (memory (rom_mapGroups s _)))), .inl ⟨mask, rfl⟩,
      .inr (config_mapGroups s _)⟩
  | reset =>
    exact ⟨.inr (.inr (.inr (memory (rom_reset s _)))), .inr (.inr (muted_reset s _)), .inr (config_reset s _)⟩
  | start clock =>
    have hconfig : ((s.atStart clock).resetItems.noteIrq s.irq).config = { s.config with clock := clock } :=
      (config_reset _ _).trans (atStart_spec s clock).2.2
    exact ⟨.inr (.inr (.inl ⟨clock, rfl⟩)), .inr (.inl ⟨clock, rfl⟩), .inl ⟨clock, rfl, hconfig⟩⟩

/-- Settles O33: an ordinary instruction makes a slot active by a key-on that reaches it only, and after `reset` and
`start` no slot is active. -/
theorem onlyAKeyOnMakesASlotSound : Obligations.OnlyAKeyOnMakesASlotSound := by
  unfold Obligations.OnlyAKeyOnMakesASlotSound
  intro i s t ix h hoff hon
  have still : ∀ {u : State}, (u.slot ix).active = true → u.slot ix ≠ s.slot ix := fun hu he => by simp [he, hoff] at hu
  have silent : Slot.reset.active ≠ true := by decide
  cases effect_of_exec h with
  | ordinary h =>
    rcases (h.slot ix).active hon with hactive | hkeyed
    · simp [hoff] at hactive
    · exact hkeyed
  | allocRom | writeRom => exact absurd rfl (still hon)
  | mute => exact absurd (slot_mapGroups s _ ix) (still hon)
  | reset | start => exact absurd (slot_reset _ _ ix ▸ hon) silent

/-! ### Release -/

/-- One tick in RELEASE, as one formula (R238, R239). -/
theorem updateEnvelope_release {t : Slot} (h : t.envState = .release) :
    updateEnvelope t = { t with
      active := t.active && decide (0 < t.volume - t.envStepRelease)
      volume := max (t.volume - t.envStepRelease) 0 } := by
  unfold updateEnvelope
  simp only [h, endCheck_eq]

/-- Ticks in RELEASE stay there and take the volume down by the step, to 0 and no further (R238). -/
theorem iterate_release {t : Slot} (h : t.envState = .release) (hv : 0 ≤ t.volume) : ∀ n : Nat,
    (updateEnvelope^[n] t).envState = .release ∧ (updateEnvelope^[n] t).envStepRelease = t.envStepRelease ∧
      (updateEnvelope^[n] t).volume = max (t.volume - n * t.envStepRelease) 0
  | 0 => ⟨h, rfl, by simp [hv]⟩
  | n + 1 => by
    obtain ⟨hstate, hstep, hvol⟩ := iterate_release h hv n
    rw [Function.iterate_succ_apply', updateEnvelope_release hstate]
    refine ⟨hstate, hstep, ?_⟩
    dsimp only
    rw [hstep, hvol]
    push_cast
    rw [add_mul, one_mul]
    omega

/-- Settles O50, by the volume after the ticks before the last: the last one takes it to 0 and ends the slot. -/
theorem releaseEndsTheSlot : Obligations.ReleaseEndsTheSlot := by
  unfold Obligations.ReleaseEndsTheSlot
  intro t n hrelease _ hv hn hpos
  obtain ⟨m, rfl⟩ : ∃ m, n = m + 1 := ⟨n - 1, by omega⟩
  obtain ⟨hstate, hstep, hvol⟩ := iterate_release hrelease hv m
  obtain ⟨hstate', -, hvol'⟩ := iterate_release hrelease hv (m + 1)
  refine ⟨?_, ?_, hstate'⟩
  · rw [Function.iterate_succ_apply', updateEnvelope_release hstate]
    have hended : decide (0 < (updateEnvelope^[m] t).volume - (updateEnvelope^[m] t).envStepRelease) = false := by
      rw [hstep, hvol]
      push_cast [add_mul] at hn
      exact decide_eq_false (by omega)
    exact Bool.and_eq_false_imp.mpr fun _ => hended
  · rw [hvol']
    omega

end Sys2Proof.Machine
end

section
/-! SUPPORT. The bytes of a PCM sample (R86, R393). -/

namespace Sys2Proof.Machine

open Sys2Proof

/-! ### The nibbles of a byte -/

theorem toNat_highNibble (b : Byte) : (b &&& 0xF0#8).toNat = b.toNat / 16 * 16 := by
  have hmask : b &&& 0xF0#8 = b >>> 4 <<< 4 := (BitVec.shiftLeft_ushiftRight (x := b) (n := 4)).symm
  rw [hmask, BitVec.toNat_shiftLeft, BitVec.toNat_ushiftRight, Nat.shiftLeft_eq, Nat.shiftRight_eq_div_pow]
  omega

theorem toNat_lowNibble_shifted (b : Byte) : ((b &&& 0x0F#8) <<< 4).toNat = b.toNat % 16 * 16 := by
  have hmask : (b &&& 0x0F#8).toNat = b.toNat % 16 := Nat.and_two_pow_sub_one_eq_mod b.toNat 4
  rw [BitVec.toNat_shiftLeft, hmask, Nat.shiftLeft_eq]
  omega

/-! ### The samples -/

theorem signed16_eq (high low : Byte) : signed16 high low = (BitVec.ofNat 16 (high.toNat * 256 + low.toNat)).toInt := by
  have hbits : high ++ low = BitVec.ofNat 16 (high.toNat * 256 + low.toNat) := by
    apply BitVec.eq_of_toNat_eq
    rw [BitVec.toNat_append, ← Nat.shiftLeft_add_eq_or_of_lt low.isLt, Nat.shiftLeft_eq, BitVec.toNat_ofNat]
    omega
  rw [signed16, hbits]

/-- An 8-bit sample is the high byte of its value. -/
theorem pcmSample_eight (m : Rom) {t : Slot} (h : t.bits = .eight) (k : Int) :
    pcmSample m t k = (BitVec.ofNat 16 ((memRead m (t.startaddr.toNat + k)).toNat * 256)).toInt := by
  simp [pcmSample, h, signed16_eq]

/-- The even sample of a 12-bit pair: the first byte and the high nibble of the second. -/
theorem pcmSample_twelve_even (m : Rom) {t : Slot} (h : t.bits = .twelve) (k : Int) :
    pcmSample m t (2 * k) = (BitVec.ofNat 16 ((memRead m (t.startaddr.toNat + 3 * k)).toNat * 256 +
      (memRead m (t.startaddr.toNat + 3 * k + 1)).toNat / 16 * 16)).toInt := by
  have hpair : sar (2 * k) 1 * 3 = 3 * k := by rw [sar_eq]; omega
  have heven : 2 * k % 2 = 0 := by omega
  simp only [pcmSample, h, hpair, if_pos heven, signed16_eq, toNat_highNibble]

/-- The odd sample of a 12-bit pair: the third byte and the low nibble of the second. -/
theorem pcmSample_twelve_odd (m : Rom) {t : Slot} (h : t.bits = .twelve) (k : Int) :
    pcmSample m t (2 * k + 1) = (BitVec.ofNat 16 ((memRead m (t.startaddr.toNat + 3 * k + 2)).toNat * 256 +
      (memRead m (t.startaddr.toNat + 3 * k + 1)).toNat % 16 * 16)).toInt := by
  have hpair : sar (2 * k + 1) 1 * 3 = 3 * k := by rw [sar_eq]; omega
  have hodd : (2 * k + 1) % 2 ≠ 0 := by omega
  simp only [pcmSample, h, hpair, if_neg hodd, signed16_eq, toNat_lowNibble_shifted]

/-- Settles O52, by the two sample formats and, for 12 bits, the two samples of a pair. -/
theorem pcmSamplesAreAssembledFromTheirBytes : Obligations.PcmSamplesAreAssembledFromTheirBytes := by
  unfold Obligations.PcmSamplesAreAssembledFromTheirBytes
  intro m t k b0 b1 b2
  constructor
  · rintro height rfl
    exact pcmSample_eight m height k
  · rintro htwelve rfl rfl rfl
    exact ⟨pcmSample_twelve_even m htwelve k, pcmSample_twelve_odd m htwelve k⟩

end Sys2Proof.Machine
end

section
/-! PROOFS. The instruction that a step runs (spec/30_encoding.md R101, R103, R105; spec/20_memory.md R89), and the data
writes through an invalid selector (R112). -/

namespace Sys2Proof.Machine

open Sys2Proof

/-! ### The packet of a queued operation -/

theorem oddPort_iff (p : Port) : oddPort p = true ↔ p.toNat % 2 = 1 := by
  simp [oddPort, BitVec.getLsbD]

/-- The sub-address of a write of an odd port is the byte latched in the register before it (R101). -/
theorem effectiveWord_odd (s : State) {p : Port} (d : Byte) (h : p.toNat % 2 = 1) :
    s.effectiveWord p d = p ++ s.reg (p - 1#4) ++ d :=
  if_pos ((oddPort_iff p).2 h)

theorem effectiveWord_even (s : State) {p : Port} (d : Byte) (h : p.toNat % 2 = 0) :
    s.effectiveWord p d = p ++ 0#8 ++ d :=
  if_neg fun hodd => by
    have := (oddPort_iff p).1 hodd
    omega

theorem packetOf_write (s : State) (p : Port) (d : Byte) : s.packetOf (.write p d) = .pw (s.effectiveWord p d) := rfl

/-! ### One step -/

theorem step_waits {s : State} (h : s.input = []) : step s = .next s := by
  rw [step, h]

theorem step_serves {s : State} {op : HostOp} {rest : List HostOp} (h : s.input = op :: rest) :
    step s = exec (decode (s.packetOf op)) { s with input := rest } := by
  rw [step, h]

/-- Settles O4, by the two cases of the queue and the packet of each kind of operation. -/
theorem stepRunsTheDecodedInstruction : Obligations.StepRunsTheDecodedInstruction := by
  unfold Obligations.StepRunsTheDecodedInstruction
  refine ⟨fun s => step_waits, fun s op rest => step_serves, ?odd, ?even, fun s p => rfl, fun s c => rfl, fun s => rfl⟩
  case odd =>
    intro s p d h
    rw [packetOf_write, effectiveWord_odd s d h]
  case even =>
    intro s p d h
    exact ⟨0#8, by rw [packetOf_write, effectiveWord_even s d h]⟩

/-! ### Writes that only store -/

/-- An instruction whose whole effect is the write of one port register only stores its byte (R140). -/
theorem onlyStores_of_exec {port : Port} {d : Byte} {i : Instr} {s : State} (h : exec i s = .next (s.setReg port d)) :
    OnlyStores port d i s :=
  ⟨_, h, rfl, storesByte_setReg port d s⟩

theorem onlyStores_fmInvalidSel (bank : BitVec 2) (r n : Nibble) (d : Byte) (s : State) :
    OnlyStores (fmDataPort bank) d (.fmInvalidSel bank r n d) s :=
  port_fmData bank ▸ onlyStores_of_exec rfl

theorem onlyStores_pcmInvalidSel (r n : Nibble) (d : Byte) (s : State) :
    OnlyStores 0x9#4 d (.pcmInvalidSel r n d) s :=
  onlyStores_of_exec rfl

/-! ### The words with an invalid selector -/

/-- The data ports whose sub-address holds a selector: the FM data port of each bank, and port 9 (R102). -/
theorem selectorPort_cases : ∀ p : Port, p ∈ [0x1#4, 0x3#4, 0x5#4, 0x7#4, 0x9#4] →
    (∃ bank, p = fmDataPort bank) ∨ p = 0x9#4 := by decide

theorem portRole_fmDataPort : ∀ bank : BitVec 2, portRole (fmDataPort bank) = .fmData bank := by decide

/-- An invalid selector decides the row of an FM data word before the parameter does (R114). -/
theorem decode_fmInvalidSel {w : OpWord} {bank : BitVec 2} (hp : wordPort w = fmDataPort bank)
    (hn : (wordSel w).toNat % 4 = 3) :
    decode (.pw w) = .fmInvalidSel bank (wordParam w) (wordSel w) (wordData w) := by
  have hrejected : selectorRejected (wordSel w) = true := beq_iff_eq.2 hn
  simp only [decode, decodeWord, hp, portRole_fmDataPort, decodeFm, if_pos hrejected]

/-- An invalid selector decides the row of a PCM data word before the parameter does (R114). -/
theorem decode_pcmInvalidSel {w : OpWord} (hp : wordPort w = 0x9#4) (hn : (wordSel w).toNat % 4 = 3) :
    decode (.pw w) = .pcmInvalidSel (wordParam w) (wordSel w) (wordData w) := by
  have hrole : portRole 0x9#4 = .pcmData := rfl
  have hrejected : selectorRejected (wordSel w) = true := beq_iff_eq.2 hn
  simp only [decode, decodeWord, hp, hrole, decodePcm, if_pos hrejected]

/-- Settles O7: both rows only store, and every word with an invalid selector decodes to one of them. -/
theorem invalidSelectorWritesAreIgnored : Obligations.InvalidSelectorWritesAreIgnored := by
  unfold Obligations.InvalidSelectorWritesAreIgnored
  refine ⟨fun bank r n d s _ => onlyStores_fmInvalidSel bank r n d s, fun r n d s _ => onlyStores_pcmInvalidSel r n d s, ?_⟩
  intro w s hport hn
  obtain ⟨bank, hfm⟩ | hpcm := selectorPort_cases _ hport
  · rw [decode_fmInvalidSel hfm hn, hfm]
    exact onlyStores_fmInvalidSel bank _ _ _ s
  · rw [decode_pcmInvalidSel hpcm hn, hpcm]
    exact onlyStores_pcmInvalidSel _ _ _ s

end Sys2Proof.Machine
end

section
/-! PROOFS. The port interface (spec/40_port_interface.md): the writes that only store (R140), the undocumented reads
(R154), and the FM parameter writes with their mirror sets (R142, R143; spec/41_fm_registers.md R171 to R185). -/

namespace Sys2Proof.Machine

open Sys2Proof Host

/-! ### Writes that only store, and undocumented reads -/

theorem modSlot_id (s : State) (i : SlotIx) : s.modSlot i (fun t => t) = s := by
  simp [State.modSlot, State.setSlot, State.slot]

/-- An FM data write without an effect on its slot stores the byte, whatever the selector (R140). -/
theorem fmWrite_skip (bank : BitVec 2) (n : Nibble) (d : Byte) (s : State) :
    fmWrite false bank n d (fun _ s1 => s1) s = s.setReg (fmDataPort bank) d := by
  rw [← port_fmData, fmWrite]
  cases fmTab n <;> rfl

/-- A PCM data write that leaves its slot as it is stores the byte, whatever the selector (R140). -/
theorem pcmWrite_id (n : Nibble) (d : Byte) (s : State) : pcmWrite n d (fun t => t) s = s.setReg 0x9#4 d := by
  rw [pcmWrite]
  cases pcmTab n with
  | none => rfl
  | some i => exact modSlot_id _ i

theorem onlyStores_fmReserved (bank : BitVec 2) (n : Nibble) (d : Byte) (s : State) :
    OnlyStores (fmDataPort bank) d (.fmReserved bank n d) s :=
  onlyStores_of_exec (congrArg Outcome.next (fmWrite_skip bank n d s))

theorem onlyStores_pcmReserved (r n : Nibble) (d : Byte) (s : State) :
    OnlyStores 0x9#4 d (.pcmReserved r n d) s :=
  onlyStores_of_exec (congrArg Outcome.next (pcmWrite_id n d s))

/-- Settles O6: the meaning of each row is one store of its port register; the reserved FM and PCM parameters go through
the selector and leave the slot as it is. -/
theorem latchUnusedAndReservedWritesOnlyStore : Obligations.LatchUnusedAndReservedWritesOnlyStore := by
  unfold Obligations.LatchUnusedAndReservedWritesOnlyStore
  refine ⟨fun d s => ?_, fun bank n d s _ => onlyStores_fmReserved bank n d s,
    fun r n d s _ _ => onlyStores_pcmReserved r n d s, fun sub d s _ => onlyStores_of_exec rfl⟩
  refine ⟨?_, ?_, ?_, ?_, ?_, ?_, ?_, ?_, ?_, ?_⟩ <;> exact onlyStores_of_exec rfl

/-- The ports without a documented read decode to the undocumented row (R103, R154). -/
theorem decode_readUndoc : ∀ p : Port, p ∉ [0#4, 1#4, 2#4] → decode (.pr p) = .readUndoc p := by decide

/-- Settles O8: such a read decodes to the undocumented row, which returns 0xFF. -/
theorem undocumentedReadsReturnAllOnes : Obligations.UndocumentedReadsReturnAllOnes := by
  unfold Obligations.UndocumentedReadsReturnAllOnes
  intro s p hp
  have hdecode := decode_readUndoc p hp
  exact ⟨hdecode, by rw [hdecode]; rfl⟩

/-! ### The fields of a data byte -/

/-- The bit fields of the claims are the slices that the model takes (R16). -/
theorem bits_eq (d : Byte) (hi lo : Nat) : bits d hi lo = d.extractLsb' lo (hi - lo + 1) := by
  rw [bits, BitVec.extractLsb', Nat.shiftRight_eq_div_pow]

/-- The F-number that a commit joins: four bits of the latched high byte over the low byte (R180). -/
theorem fnumber_eq (high low : Byte) :
    high.extractLsb' 0 4 ++ low = BitVec.ofNat 12 (high.toNat % 16 * 256 + low.toNat) := by
  apply BitVec.eq_of_toNat_eq
  rw [BitVec.toNat_append, ← Nat.shiftLeft_add_eq_or_of_lt low.isLt, Nat.shiftLeft_eq, BitVec.extractLsb'_toNat,
    BitVec.toNat_ofNat, Nat.shiftRight_zero]
  have := low.isLt
  omega

/-! ### FM parameters other than the key -/

/-- An instruction whose meaning is an unsynchronised FM write of fields changes the one slot that it names (R142). -/
theorem runsWriting_named {bank : BitVec 2} {n : Nibble} {d : Byte} {f : Slot → Slot} {i : Instr} {s : State}
    (hn : selectorValid n = true) (h : exec i s = .next (fmWrite false bank n d (fun ix s1 => s1.modSlot ix f) s)) :
    RunsWriting (fmDataPort bank) d (namesFmSlot bank n) f i s :=
  ⟨_, h, fmWrite_writes false bank n d f s hn⟩

/-- An instruction whose meaning is a synchronised FM write of fields changes every slot that the sync mode mirrors to
(R142). -/
theorem runsWriting_mirrored {bank : BitVec 2} {n : Nibble} {d : Byte} {f : Slot → Slot} {i : Instr} {s : State}
    (hn : selectorValid n = true) (h : exec i s = .next (fmWrite true bank n d (fun ix s1 => s1.modSlot ix f) s)) :
    RunsWriting (fmDataPort bank) d (reachesFmSlot s bank n) f i s :=
  ⟨_, h, fmWrite_writes true bank n d f s hn⟩

/-- Settles O10: the nine rows are unsynchronised writes of the slices that their bit fields name. -/
theorem unsynchronisedParametersWriteOneSlot : Obligations.UnsynchronisedParametersWriteOneSlot := by
  unfold Obligations.UnsynchronisedParametersWriteOneSlot
  intro bank n d s hn
  simp only [bits_eq]
  refine ⟨?_, ?_, ?_, ?_, ?_, ?_, ?_, ?_, ?_⟩ <;> exact runsWriting_named hn rfl

/-- Settles O11: the five rows are synchronised writes of the slices that their bit fields name, the first of them with
the F-number joined from the slot's own latch. -/
theorem synchronisedParametersWriteEverySibling : Obligations.SynchronisedParametersWriteEverySibling := by
  unfold Obligations.SynchronisedParametersWriteEverySibling
  intro bank n d s hn
  simp only [bits_eq, ← fnumber_eq]
  refine ⟨?_, ?_, ?_, ?_, ?_⟩ <;> exact runsWriting_mirrored hn rfl

/-! ### Key-on -/

/-- The end markers after a key-on of a slot: its own is cleared, if it owns one (R171). -/
def clearMark (v : BitVec 16) (i : SlotIx) : BitVec 16 := if i.val % 4 = 0 then withBit v (i.val / 4) false else v

theorem setEndStatus_clear (s : State) (i : SlotIx) :
    s.setEndStatus i false = { s with endStatus := clearMark s.endStatus i } := by
  unfold State.setEndStatus clearMark
  split <;> rfl

/-- Marker `k` belongs to slot `4 * k` (R151, R171). -/
theorem getLsbD_clearMark (v : BitVec 16) (i : SlotIx) (k : Nat) :
    (clearMark v i).getLsbD k = (v.getLsbD k && !decide (i.val = 4 * k)) := by
  unfold clearMark
  split
  · next howner =>
    have hmark : (k = i.val / 4 ∧ k < 16) ↔ i.val = 4 * k := by omega
    simp only [getLsbD_withBit, hmark]
    by_cases hi : i.val = 4 * k <;> simp [hi]
  · have hi : i.val ≠ 4 * k := by omega
    simp [hi]

/-- The markers after several key-ons: cleared are those that one of the slots owns. -/
theorem getLsbD_foldl_clearMark (k : Nat) : ∀ (l : List SlotIx) (v : BitVec 16),
    (l.foldl clearMark v).getLsbD k = (v.getLsbD k && !decide (∃ i ∈ l, i.val = 4 * k))
  | [], v => by simp
  | i :: l, v => by
    rw [List.foldl_cons, getLsbD_foldl_clearMark k l, getLsbD_clearMark, Bool.and_assoc, ← Bool.not_or]
    simp only [List.exists_mem_cons_iff, Bool.decide_or]

/-- A key-on of one slot of a state: the slot started, its end marker cleared (R171). -/
theorem putKey_on {d : Byte} (hd : d.getLsbD 0 = true) (i : SlotIx) (s : State) (v : BitVec 16) :
    putKey d i { s with endStatus := v } =
      { s.modSlot i (keyOnSlot s.config) with endStatus := clearMark v i } := by
  rw [putKey, if_pos hd, setEndStatus_clear]
  rfl

/-- Key-ons one after another: the slots as a write of slots changes them, and beside it the end markers. -/
theorem writeTargets_keyOn {d : Byte} (hd : d.getLsbD 0 = true) (g : GroupIx) :
    ∀ (banks : List Bank) (s : State) (v : BitVec 16),
      writeTargets (putKey d) g banks { s with endStatus := v } =
        { writeTargets (fun i s1 => s1.modSlot i (keyOnSlot s.config)) g banks s with
          endStatus := (banks.map (slotIx · g)).foldl clearMark v }
  | [], _, _ => rfl
  | b :: banks, s, v => by
    have htail := writeTargets_keyOn hd g banks (s.modSlot (slotIx b g) (keyOnSlot s.config)) (clearMark v (slotIx b g))
    rw [← putKey_on hd] at htail
    exact htail

/-- The slots that a synchronised write visits are those that the sync mode mirrors to (R142). -/
theorem mem_targetSlots (s : State) (bank : BitVec 2) {n : Nibble} {g : GroupIx} (hg : g.val = selectedGroup n)
    (i : SlotIx) :
    i ∈ (s.targets true bank.toFin g).map (slotIx · g) ↔ reachesFmSlot s bank n i = true := by
  refine Iff.trans ?_ (fmHits_iff s true bank n g hg i)
  simp only [List.mem_map, eq_comm (b := i), eq_slotIx_iff]
  constructor
  · rintro ⟨b, hb, hbank, hgroup⟩
    exact ⟨hgroup, b, hb, hbank⟩
  · rintro ⟨hgroup, b, hb, hbank⟩
    exact ⟨b, hb, hbank, hgroup⟩

/-- A key-on write as a whole: a synchronised write of slots, and beside it the end markers of the slots that it reaches
(R142, R171). -/
theorem fmWrite_keyOn (bank : BitVec 2) {n : Nibble} {d : Byte} (s : State) (hn : selectorValid n = true)
    (hd : d.getLsbD 0 = true) :
    ∃ v : BitVec 16,
      fmWrite true bank n d (putKey d) s =
        { fmWrite true bank n d (fun i s1 => s1.modSlot i (keyOnSlot s.config)) s with endStatus := v } ∧
      ∀ k, v.getLsbD k =
        (s.endStatus.getLsbD k && !decide (∃ i, reachesFmSlot s bank n i = true ∧ i.val = 4 * k)) := by
  obtain ⟨g, hg, hv⟩ := fmTab_valid n hn
  refine ⟨((s.targets true bank.toFin g).map (slotIx · g)).foldl clearMark s.endStatus, ?_, fun k => ?_⟩
  · unfold fmWrite
    simp only [hg]
    exact writeTargets_keyOn hd g _ (s.setReg (PortRole.fmData bank).port d) s.endStatus
  · simp only [getLsbD_foldl_clearMark, mem_targetSlots s bank hv]

/-- Settles O12: the slots and the frame are those of a synchronised write of slots, each started as a key-on starts one
slot; the cleared markers are those of the slots that it reaches, and marker `k` belongs to slot `4 * k`. -/
theorem keyOnStartsEverySibling : Obligations.KeyOnStartsEverySibling := by
  unfold Obligations.KeyOnStartsEverySibling
  intro bank n d s hn hd
  obtain ⟨frame, stores, slots⟩ := fmWrite_writes true bank n d (keyOnSlot s.config) s hn
  obtain ⟨v, hwrite, hmarks⟩ := fmWrite_keyOn bank s hn hd
  refine ⟨_, congrArg Outcome.next hwrite, ?_, stores, fun i => ?slot, fun i hi => ?owned, fun k hk => ?unused⟩
  · exact congrArg (fun t : State => { t with endStatus := s.endStatus }) frame
  case slot =>
    have hslot := slots i
    split
    · next hreach => exact (hslot.trans (if_pos hreach)) ▸ keyOnSlot_keyedOn s.config (s.slot i)
    · next hreach => exact hslot.trans (if_neg hreach)
  case owned =>
    have howner : (∃ j, reachesFmSlot s bank n j = true ∧ j.val = 4 * (i.val / 4)) ↔
        reachesFmSlot s bank n i = true := by
      constructor
      · rintro ⟨j, hj, hji⟩
        obtain rfl : j = i := Fin.ext (by omega)
        exact hj
      · exact fun h => ⟨i, h, by omega⟩
    simp only [hmarks, howner, Bool.decide_eq_true]
  case unused =>
    have hnone : ¬∃ j : SlotIx, reachesFmSlot s bank n j = true ∧ j.val = 4 * k := by
      rintro ⟨j, -, hj⟩
      omega
    simp only [hmarks, hnone, decide_false, Bool.not_false, Bool.and_true]

end Sys2Proof.Machine
end

section
/-! PROOFS. The timer and external-memory writes of port 0xD (spec/42_pcm_timer_registers.md R212 to R221): each is the
store of its byte (R140), then one shared operation over the timers, the flags or the external cursor. -/

namespace Sys2Proof.Machine

open Sys2Proof Host

/-! ### The store of port 0xD -/

/-- Whatever else a write of port 0xD does, it stores its byte when its port registers are those of the store (R140). -/
theorem storesByte_of_regs {d : Byte} {s t : State} (h : t.regs = (storeTimer d s).regs) : StoresByte 0xD#4 d s t := by
  intro p
  have hreg : t.reg p = (s.setReg 0xD#4 d).reg p := congrArg (·.get p.toFin) h
  exact hreg.trans (reg_setReg s 0xD#4 p d)

/-! ### Timer loads -/

/-- An instruction whose meaning is a load of the timers (R212): only they, their periods and the port register
change. -/
theorem runs_loadTimers {i : Instr} {d : Byte} {s : State} {a : BitVec 10} {b : Byte}
    (h : exec i s = .next { storeTimer d s with timerA := a, timerB := b }.recomputePeriods) :
    ∃ t, exec i s = .next t ∧
      { t with
        timerA := s.timerA, timerB := s.timerB, timerAPeriod := s.timerAPeriod, timerBPeriod := s.timerBPeriod
        regs := s.regs } = s ∧
      StoresByte 0xD#4 d s t ∧ t.timerA = a ∧ t.timerB = b ∧
      t.timerAPeriod = 384 * (1024 - t.timerA.toNat) ∧ t.timerBPeriod = 384 * 16 * (256 - t.timerB.toNat) :=
  ⟨_, h, rfl, storesByte_of_regs rfl, rfl, rfl, rfl, rfl⟩

/-- Settles O17: each row loads one timer, in part or as a whole, and the other with the value that it has. -/
theorem timerLoadsRecomputeThePeriods : Obligations.TimerLoadsRecomputeThePeriods := by
  unfold Obligations.TimerLoadsRecomputeThePeriods
  intro d s i hi
  simp only [List.mem_cons, List.not_mem_nil, or_false] at hi
  obtain ⟨hhigh, hlow⟩ := withTimer_toNat s.timerA d
  obtain rfl | rfl | rfl := hi
  · obtain ⟨t, hexec, frame, stores, hA, hB, periods⟩ :=
      runs_loadTimers (i := .timAHi d) (s := s) (a := withTimerHigh s.timerA d) (b := s.timerB) rfl
    exact ⟨t, hexec, frame, stores, by simpa [hA] using hhigh, by simpa using hB, periods⟩
  · obtain ⟨t, hexec, frame, stores, hA, hB, periods⟩ :=
      runs_loadTimers (i := .timALo d) (s := s) (a := withTimerLow s.timerA d) (b := s.timerB) rfl
    exact ⟨t, hexec, frame, stores, by simpa [hA] using hlow, by simpa using hB, periods⟩
  · obtain ⟨t, hexec, frame, stores, hA, hB, periods⟩ :=
      runs_loadTimers (i := .timB d) (s := s) (a := s.timerA) (b := d) rfl
    exact ⟨t, hexec, frame, stores, by simp [hA], by simpa using hB, periods⟩

/-! ### Timer control -/

/-- The two reset bits of `TIM_CTRL` one after the other (R213): only the two flag fields may change, and each timer's
flags are cleared by its own bit alone. -/
theorem timerResets_spec (s : State) (d : Byte) :
    ∃ t, (s.timerReset 0 d).timerReset 1 d = t ∧ { t with status := s.status, irqstate := s.irqstate } = s ∧
      (∀ k, k < 2 → t.status.getLsbD k = (s.status.getLsbD k && !d.getLsbD (4 + k))) ∧
      ∀ k, k < 2 → t.irqstate.getLsbD k = (s.irqstate.getLsbD k && !d.getLsbD (4 + k)) := by
  obtain ⟨frame0, status0, irq0⟩ := timerReset_spec s 0 d
  obtain ⟨frame1, status1, irq1⟩ := timerReset_spec (s.timerReset 0 d) 1 d
  have htimer {k : Nat} (hk : k < 2) : k = 0 ∨ k = 1 := by omega
  refine ⟨_, rfl, ?frame, fun k hk => ?status, fun k hk => ?irqstate⟩
  case frame =>
    exact (congrArg (fun u : State => { u with status := s.status, irqstate := s.irqstate }) frame1).trans frame0
  case status =>
    rw [status1 k hk, status0 k hk]
    obtain rfl | rfl := htimer hk <;> simp
  case irqstate =>
    rw [irq1 k hk, irq0 k hk]
    obtain rfl | rfl := htimer hk <;> simp

/-- Settles O18: the byte is stored and enabled, the two reset bits act, and the note of the IRQ level adds the event
(R505). -/
theorem timerControlClearsSelectedFlags : Obligations.TimerControlClearsSelectedFlags := by
  unfold Obligations.TimerControlClearsSelectedFlags
  intro d s
  obtain ⟨t, hresets, frame, status, irqstate⟩ := timerResets_spec { storeTimer d s with enable := d } d
  have hexec : exec (.timCtrl d) s = .next (t.noteIrq s.irq) :=
    congrArg (fun u : State => Outcome.next (u.noteIrq s.irq)) hresets
  have field {α : Type} (f : State → α) := congrArg f frame
  have hregs : t.regs = (storeTimer d s).regs := field State.regs
  have henable : t.enable = d := field State.enable
  have hevents : t.events = s.events := field State.events
  rw [noteIrq_events, hevents] at hexec
  refine ⟨_, hexec, ?frame, storesByte_of_regs hregs, henable, status, irqstate, rfl⟩
  case frame =>
    exact field fun u => { u with enable := s.enable, events := s.events, regs := s.regs }

/-! ### The external cursor -/

/-- An instruction whose meaning is a move of the external cursor (R217): the latch follows it, and nothing else but the
direction bit and the port register changes. -/
theorem runs_moveCursor {i : Instr} {d : Byte} {s : State} {a : Addr} {dir : Bool}
    (h : exec i s = .next { storeTimer d s with extAddress := a, extRw := dir }.reloadLatch) :
    ∃ t, exec i s = .next t ∧
      { t with
        extAddress := s.extAddress, extRw := s.extRw, extReadlatch := s.extReadlatch, regs := s.regs } = s ∧
      StoresByte 0xD#4 d s t ∧ t.extAddress = a ∧ t.extRw = dir ∧
      t.extReadlatch = memRead s.rom t.extAddress.toNat :=
  ⟨_, h, rfl, storesByte_of_regs rfl, rfl, rfl, rfl⟩

/-- Settles O19: each row moves the cursor to the address with its own bits replaced; the first two keep the direction
bit. -/
theorem externalAddressWritesReloadTheLatch : Obligations.ExternalAddressWritesReloadTheLatch := by
  unfold Obligations.ExternalAddressWritesReloadTheLatch
  intro d s i hi
  simp only [List.mem_cons, List.not_mem_nil, or_false] at hi
  obtain ⟨hlow, hmid, hhigh⟩ := withPart_toNat s.extAddress d
  obtain rfl | rfl | rfl := hi
  · obtain ⟨t, hexec, frame, stores, haddr, hrw, latch⟩ :=
      runs_moveCursor (i := .extAddr0 d) (s := s) (a := withLow s.extAddress d) (dir := s.extRw) rfl
    exact ⟨t, hexec, frame, stores, by simpa [haddr] using hlow, by simpa using hrw, latch⟩
  · obtain ⟨t, hexec, frame, stores, haddr, hrw, latch⟩ :=
      runs_moveCursor (i := .extAddr1 d) (s := s) (a := withMid s.extAddress d) (dir := s.extRw) rfl
    exact ⟨t, hexec, frame, stores, by simpa [haddr] using hmid, by simpa using hrw, latch⟩
  · obtain ⟨t, hexec, frame, stores, haddr, hrw, latch⟩ :=
      runs_moveCursor (i := .extAddr2 d) (s := s) (a := withHigh s.extAddress d) (dir := d.getLsbD 7) rfl
    exact ⟨t, hexec, frame, stores, by simpa [haddr] using hhigh, by simpa using hrw, latch⟩

/-- The state in which `EXT_DATA` advances the cursor: the byte stored, and the event added in the write direction only
(R216). -/
theorem emitExtWrite_eq (d : Byte) (s : State) :
    (if s.extRw then storeTimer d s else (storeTimer d s).emit (.extWrite s.extAddress d)) =
      { storeTimer d s with events := s.events ++ if s.extRw then [] else [.extWrite s.extAddress d] } := by
  split
  · rw [List.append_nil]
    rfl
  · rfl

/-- Settles O20: the byte is stored, the event is added in the write direction, and the cursor advances from its old
place. -/
theorem externalDataWriteEmitsAndAdvances : Obligations.ExternalDataWriteEmitsAndAdvances := by
  unfold Obligations.ExternalDataWriteEmitsAndAdvances
  intro d s
  have hexec := congrArg (fun u : State => (Outcome.next u.advanceExt : Answer)) (emitExtWrite_eq d s)
  obtain ⟨-, haddr, hlatch⟩ := advanceExt_spec
    { storeTimer d s with events := s.events ++ if s.extRw then [] else [.extWrite s.extAddress d] }
  exact ⟨_, hexec, rfl, storesByte_of_regs rfl, rfl, haddr, hlatch⟩

end Sys2Proof.Machine
end

section
/-! PROOFS. Keycodes, rates and the envelope from its key-on (spec/43_envelope.md): the formulas of R230 to R236, the sweep
that a rate below 4 stops (R237), and the attack up to its last tick (R243). -/

namespace Sys2Proof.Machine

open Sys2Proof

/-! ### Keycodes and rates -/

theorem n43Internal_le (f : Nat) : n43Internal f ≤ 3 := by
  unfold n43Internal
  split_ifs <;> omega

/-- An internal keycode needs no clamp: three bits of the block and `n43` fill 0..31 (R230). -/
theorem internalKeycode_le (t : Slot) : internalKeycode t ≤ 31 := by
  have hn := n43Internal_le t.fns.toNat
  unfold internalKeycode
  omega

theorem keycode_internal {t : Slot} (h : t.waveform ≠ 7#3) : keycode t = internalKeycode t :=
  if_neg (by simpa [Slot.external] using h)

theorem keycode_external {t : Slot} (h : t.waveform = 7#3) : keycode t = externalKeycode t :=
  if_pos (by simpa [Slot.external] using h)

/-- On a natural number the clamp to `0..hi` is the minimum that the model computes. -/
theorem clamp_natCast (a hi : Nat) : clamp a 0 hi = (min a hi : Nat) := by
  unfold clamp
  rw [max_eq_left (Int.natCast_nonneg a), Nat.cast_min]

/-- Settles O46: the keycode by the slot's wave, and each rate by its base. -/
theorem keycodesAndRatesFollowTheirRules : Obligations.KeycodesAndRatesFollowTheirRules := by
  unfold Obligations.KeycodesAndRatesFollowTheirRules
  refine ⟨fun t hwave => ?_, fun t hwave => ?_, fun c t e => ?_⟩
  · rw [keycode_internal hwave]
    exact ⟨rfl, internalKeycode_le t⟩
  · rw [keycode_external hwave]
    exact (clamp_natCast _ 31).symm
  · have hrate : effectiveRate c t e = min (rateBase t e + rksAt c (keycode t) t.keyscale) 63 := rfl
    rw [hrate, ← clamp_natCast, Nat.cast_add]
    cases e <;> rfl

/-! ### The steps of a key-on -/

theorem envStepOf_of_lt {c : Config} {t : Slot} {e : EnvState} (h : effectiveRate c t e < 4) : envStepOf c t e = 0 :=
  if_pos h

theorem envStepOf_of_le {c : Config} {t : Slot} {e : EnvState} (h : 4 ≤ effectiveRate c t e) :
    envStepOf c t e = sweepStep c (sweepDelta t e) (sweepEntry c (effectiveRate c t e) e) :=
  if_neg (not_lt.mpr h)

theorem sweepDelta_eq (t : Slot) (e : EnvState) : sweepDelta t e = if e = .decay1 then t.d1l.toNat * 16 else 255 := by
  cases e <;> rfl

theorem sweepEntry_eq (c : Config) (r : Nat) (e : EnvState) :
    sweepEntry c r e = (if e = .attack ∨ e = .release then lutAR c else lutDC c) r := by
  cases e <;> rfl

/-! ### One tick -/

/-- The step of the state that the slot is in. -/
def currentEnvStep (t : Slot) : Nat :=
  match t.envState with
  | .attack => t.envStepAttack
  | .decay1 => t.envStepDecay1
  | .decay2 => t.envStepDecay2
  | .release => t.envStepRelease

/-- One tick in ATTACK, as one formula (R238). -/
theorem updateEnvelope_attack {t : Slot} (h : t.envState = .attack) :
    updateEnvelope t = { t with
      volume := min (t.volume + t.envStepAttack) volumeTop
      envState := if volumeTop ≤ t.volume + t.envStepAttack then .decay1 else .attack } := by
  unfold updateEnvelope
  simp only [h, tickAttack_eq]

/-- The volume after one tick: the attack adds the step of its state up to the top, the other states subtract theirs down
to 0 (R238). -/
theorem volume_updateEnvelope (t : Slot) :
    (updateEnvelope t).volume =
      if t.envState = .attack then min (t.volume + currentEnvStep t) volumeTop else max (t.volume - currentEnvStep t) 0 := by
  unfold updateEnvelope currentEnvStep
  cases h : t.envState with
  | attack => simp [tickAttack_eq]
  | decay1 => simp [tickDecay1_eq]
  | decay2 => simp [endCheck_eq]
  | release => simp [endCheck_eq]

/-- A state without a step holds the volume (R237). -/
theorem volume_updateEnvelope_of_step_zero {t : Slot} (ht : GoodSlot t) (h : currentEnvStep t = 0) :
    (updateEnvelope t).volume = t.volume := by
  obtain ⟨hlow, hhigh, -⟩ := ht
  have htop := volumeTop_eq
  rw [volume_updateEnvelope, h]
  split <;> omega

/-! ### The attack -/

/-- Ticks of an attack that has not reached the top add the step each, and change nothing else (R238). -/
theorem iterate_attack {t : Slot} (h : t.envState = .attack) : ∀ n : Nat, t.volume + n * t.envStepAttack < volumeTop →
    updateEnvelope^[n] t = { t with volume := t.volume + n * t.envStepAttack }
  | 0, _ => by simp
  | n + 1, hn => by
    have hsum : t.volume + n * t.envStepAttack + t.envStepAttack = t.volume + (n + 1 : Nat) * t.envStepAttack := by
      push_cast
      ring
    rw [Function.iterate_succ_apply', iterate_attack h n (by omega), updateEnvelope_attack (by exact h)]
    dsimp only
    rw [hsum, min_eq_left hn.le, if_neg (not_le.mpr hn), h]

/-- The slot of a key-on through the ticks of its attack (R236, R238). -/
theorem iterate_initEnvelope (c : Config) (t : Slot) {n : Nat} (h : n * envStepOf c t .attack < 160 * 65536) :
    updateEnvelope^[n] (initEnvelope c t) =
      { initEnvelope c t with volume := 95 * 65536 + n * (envStepOf c t .attack : Int) } :=
  iterate_attack (t := initEnvelope c t) rfl n (by
    have htop := volumeTop_eq
    have hstart : (initEnvelope c t).volume = 95 * 65536 := rfl
    have hstep : (initEnvelope c t).envStepAttack = envStepOf c t .attack := rfl
    rw [hstart, hstep]
    zify at h
    omega)

/-- Settles O47: the step is the model's truncated quotient with the table of its state, and a state whose step is 0 holds
the volume, an attack from the key-on on. -/
theorem ratesGiveTheirStepsAndZeroRatesHold : Obligations.RatesGiveTheirStepsAndZeroRatesHold := by
  unfold Obligations.RatesGiveTheirStepsAndZeroRatesHold
  refine ⟨fun c t e delta lut hrate hdelta hlut => ?_, fun c t e hrate => ?_⟩
  · rw [envStepOf_of_le hrate, sweepStep_eq, sweepDelta_eq, sweepEntry_eq, ← hdelta, ← hlut]
  · have hzero := envStepOf_of_lt hrate
    refine ⟨hzero, fun u hu hstate hattack hdecay1 hdecay2 hrelease => ?_, fun he n => ?_⟩
    · have hcurrent : currentEnvStep u = envStepOf c t e := by
        unfold currentEnvStep
        rw [hstate]
        cases e with
        | attack => exact hattack
        | decay1 => exact hdecay1
        | decay2 => exact hdecay2
        | release => exact hrelease
      exact volume_updateEnvelope_of_step_zero hu (hcurrent.trans hzero)
    · subst he
      rw [iterate_initEnvelope c t (by simp [hzero])]
      exact ⟨by simp [hzero], rfl⟩

/-- The tick of the attack's end is the first at which the steps add up to the 160 levels of the climb. -/
theorem mul_lt_climb_iff {e n k : Nat} (he : 0 < e) (hn : n = (160 * 65536 + e - 1) / e) : k * e < 160 * 65536 ↔ k < n := by
  rw [hn, Nat.lt_div_iff_mul_lt he]
  omega

/-- Settles O49: the ticks before the last add the step each, and the last one saturates at the top. -/
theorem attackReachesTheTopExactly : Obligations.AttackReachesTheTopExactly := by
  unfold Obligations.AttackReachesTheTopExactly
  intro c t e n hstep hpos hn
  have below (k : Nat) (hk : k < n) : updateEnvelope^[k] (initEnvelope c t) =
      { initEnvelope c t with volume := 95 * 65536 + k * (e : Int) } := by
    rw [hstep]
    exact iterate_initEnvelope c t (hstep ▸ (mul_lt_climb_iff hpos hn).mpr hk)
  refine ⟨fun k hk => ?_, ?_⟩
  · rw [below k hk]
    exact ⟨rfl, rfl⟩
  · obtain ⟨m, rfl⟩ : ∃ m, n = m + 1 := ⟨n - 1, by
      have := (mul_lt_climb_iff (k := 0) hpos hn).mp (by omega)
      omega⟩
    have htop : volumeTop ≤ 95 * 65536 + m * (e : Int) + envStepOf c t .attack := by
      have hreached := mt (mul_lt_climb_iff (k := m + 1) hpos hn).mp (lt_irrefl _)
      have hlevels := volumeTop_eq
      rw [← hstep]
      rw [add_mul, one_mul] at hreached
      zify at hreached
      omega
    rw [Function.iterate_succ_apply', below m m.lt_succ_self, updateEnvelope_attack rfl]
    exact ⟨if_pos htop, min_eq_right htop⟩

end Sys2Proof.Machine
end

section
/-! PROOFS. The table parameters (spec/10_state.md R32; spec/92_eei_decisions.md D21, D23, D44, D49): the entries that
the spec fixes, whatever a configuration sets. -/

namespace Sys2Proof.Machine

open Sys2Proof

/-! ### The pitch LFO -/

theorem expSeries_zero_term (y : Nat) : ∀ n k : Nat, expSeries y n k 0 = 0
  | 0, _ => rfl
  | n + 1, k => by simp [expSeries, expSeries_zero_term y n]

/-- At the exponent 0 every term of the series after the first is 0. -/
theorem expSeries_zero (n k t : Nat) : expSeries 0 (n + 1) k t = t := by
  rw [expSeries, Nat.mul_zero, Nat.zero_div, expSeries_zero_term, Nat.add_zero]

theorem exp2Fixed_zero (den : Nat) : exp2Fixed 0 den = 2 ^ 128 := by
  rw [exp2Fixed, Nat.mul_zero, Nat.zero_div]
  exact expSeries_zero 24 0 _

/-- A pitch-LFO entry whose depth or wave value is 0 is exactly 1.0 (R272). -/
theorem plfoOf_eq_one {k : Nat} {phi : UnitFrac} (h : plfoMilliCents k * phi.num.val = 0) : plfoOf k phi = 2 ^ 53 := by
  unfold plfoOf
  rw [h, exp2Fixed_zero]
  cases phi.negative <;> rfl

/-- R272: the "off" wave is 0 everywhere, and depth 0 is 0 cents. -/
theorem plfoAt_eq_one (c : Config) {w : BitVec 2} {k : BitVec 3} (i : Nat) (h : w = 0#2 ∨ k = 0#3) :
    plfoAt c w k i = 2 ^ 53 := by
  apply plfoOf_eq_one
  obtain rfl | rfl := h
  · rw [lfoShapeAt, if_pos rfl]
    exact Nat.mul_zero _
  · exact Nat.zero_mul _

/-! ### Detune -/

/-- R282: rows 0 and 4. -/
theorem detuneAt_num_eq_zero (c : Config) {d : BitVec 3} (kc : Nat) (h : d ∈ [0#3, 4#3]) :
    (detuneAt c d kc).num = 0 := by
  simp only [List.mem_cons, List.not_mem_nil, or_false] at h
  obtain rfl | rfl := h <;> rfl

/-- R282: rows 1 to 3 hold the magnitude itself. -/
theorem detuneAt_num_nonneg (c : Config) {d : BitVec 3} (kc : Nat) (h : d ∈ [1#3, 2#3, 3#3]) :
    0 ≤ (detuneAt c d kc).num := by
  simp only [List.mem_cons, List.not_mem_nil, or_false] at h
  obtain rfl | rfl | rfl := h <;> exact Int.natCast_nonneg _

/-- R282: rows 5 to 7 hold the magnitude's negative. -/
theorem detuneAt_num_nonpos (c : Config) {d : BitVec 3} (kc : Nat) (h : d ∈ [5#3, 6#3, 7#3]) :
    (detuneAt c d kc).num ≤ 0 := by
  simp only [List.mem_cons, List.not_mem_nil, or_false] at h
  obtain rfl | rfl | rfl := h <;> exact Int.neg_nonpos_of_nonneg (Int.natCast_nonneg _)

/-! ### Attenuation -/

/-- R432: the last three levels have the gain 1; none of them is level 0. -/
theorem attnAt_eq_one (c : Config) {l : BitVec 4} (h : 13 ≤ l.toNat) : attnAt c l = 1 := by
  have hl : l ≠ 0#4 := by
    rintro rfl
    exact absurd h (by decide)
  rw [attnAt, if_neg hl, if_pos h]

/-- Settles O60: at the fixed pitch entries the exponent is 0, a detune magnitude takes the sign of its row, and the other
tables have their fixed entries as constants. -/
theorem tablesKeepWhatTheSpecFixes : Obligations.TablesKeepWhatTheSpecFixes := by
  unfold Obligations.TablesKeepWhatTheSpecFixes
  intro c w k ams i a kc d l
  exact ⟨plfoAt_eq_one c i, fun hw => if_pos hw, fun ha => if_pos ha, detuneAt_num_eq_zero c kc,
    detuneAt_num_nonneg c kc, detuneAt_num_nonpos c kc, fun hl => if_pos hl, attnAt_eq_one c⟩

end Sys2Proof.Machine
end

section
/-! PROOFS. One operator evaluation (spec/45_operator.md section 1; spec/46_algorithms.md R341) and the LFO tick in it
(spec/44_lfo_pitch.md R270, R276). -/

namespace Sys2Proof.Machine

open Sys2Proof

/-! ### The LFO tick -/

/-- The index of an LFO phase is its bits 15..8 (R270). -/
theorem lfoIndex_eq (phase : BitVec 32) : lfoIndex phase = phase.toNat / 256 % 256 := by
  rw [lfoIndex, BitVec.extractLsb'_toNat, Nat.shiftRight_eq_div_pow]

/-- What an LFO tick gives the four fields that it changes (R276). -/
theorem updateLfo_spec (c : Config) (t : Slot) :
    (updateLfo c t).lfoPhase.toNat = (t.lfoPhase.toNat + t.lfoStep.toNat) % 2 ^ 32 ∧
      (updateLfo c t).lfoAmplitude = alfoAt c t.lfowave ((updateLfo c t).lfoPhase.toNat / 256 % 256) ∧
      (updateLfo c t).lfoPhasemod = plfoAt c t.lfowave t.pms ((updateLfo c t).lfoPhase.toNat / 256 % 256) ∧
      (updateLfo c t).step = calcStep c { t with lfoPhasemod := (updateLfo c t).lfoPhasemod } := by
  rw [← lfoIndex_eq]
  refine ⟨BitVec.toNat_add _ _, rfl, rfl, ?_⟩
  apply calcStep_congr <;> rfl

/-- An LFO tick changes the phase, the two table values and the step only (R276): with those of a slot that agrees on
them put back, the slot is as before. -/
theorem updateLfo_frame (c : Config) {t u : Slot} (hphase : u.lfoPhase = t.lfoPhase)
    (hamplitude : u.lfoAmplitude = t.lfoAmplitude) (hphasemod : u.lfoPhasemod = t.lfoPhasemod)
    (hstep : u.step = t.step) :
    { updateLfo c u with
      lfoPhase := t.lfoPhase, lfoAmplitude := t.lfoAmplitude, lfoPhasemod := t.lfoPhasemod, step := t.step } = u := by
  rw [← hphase, ← hamplitude, ← hphasemod, ← hstep]
  rfl

/-- An envelope tick changes no field that the step reads (R238, R285). -/
theorem calcStep_updateEnvelope (c : Config) (t : Slot) (k : Nat) :
    calcStep c { updateEnvelope t with lfoPhasemod := k } = calcStep c { t with lfoPhasemod := k } := by
  have field {α : Type} (f : Slot → α) := congrArg f (updateEnvelope_frame t)
  exact calcStep_congr c (field Slot.waveform) (field Slot.block) (field Slot.fns) (field Slot.multiple)
    (field Slot.detune) (field Slot.fs) (field Slot.srcnote) (field Slot.srcb) rfl

/-- A slot's tick gives the LFO fields and the step what the LFO tick alone would: the envelope tick before it changes
none of the fields that they come from (R276, R300). -/
theorem slotTick_lfo (c : Config) (t : Slot) :
    (slotTick c t).lfoPhase.toNat = (t.lfoPhase.toNat + t.lfoStep.toNat) % 2 ^ 32 ∧
      (slotTick c t).lfoAmplitude = alfoAt c t.lfowave ((slotTick c t).lfoPhase.toNat / 256 % 256) ∧
      (slotTick c t).lfoPhasemod = plfoAt c t.lfowave t.pms ((slotTick c t).lfoPhase.toNat / 256 % 256) ∧
      (slotTick c t).step = calcStep c { t with lfoPhasemod := (slotTick c t).lfoPhasemod } := by
  obtain ⟨phase, amplitude, phasemod, step⟩ := updateLfo_spec c (updateEnvelope t)
  have field {α : Type} (f : Slot → α) := congrArg f (updateEnvelope_frame t)
  have hphase : (updateEnvelope t).lfoPhase = t.lfoPhase := field Slot.lfoPhase
  have hstep : (updateEnvelope t).lfoStep = t.lfoStep := field Slot.lfoStep
  have hwave : (updateEnvelope t).lfowave = t.lfowave := field Slot.lfowave
  have hpms : (updateEnvelope t).pms = t.pms := field Slot.pms
  rw [hphase, hstep] at phase
  rw [hwave] at amplitude
  rw [hwave, hpms] at phasemod
  exact ⟨phase, amplitude, phasemod, step.trans (calcStep_updateEnvelope c t _)⟩

/-- A slot's tick changes, beside what the envelope tick changes, the LFO's phase and table values and the step only
(R276). -/
theorem slotTick_frame (c : Config) (t : Slot) :
    { slotTick c t with
      lfoPhase := t.lfoPhase, lfoAmplitude := t.lfoAmplitude, lfoPhasemod := t.lfoPhasemod, step := t.step } =
        updateEnvelope t := by
  have field {α : Type} (f : Slot → α) := congrArg f (updateEnvelope_frame t)
  exact updateLfo_frame c (field Slot.lfoPhase) (field Slot.lfoAmplitude) (field Slot.lfoPhasemod) (field Slot.step)

/-! ### The operator -/

theorem scaled_eq (sample : Int) (env : Nat) : scaled sample env = sample * env / 65536 := sar_eq _ 16

theorem phaseIndex_eq (p : BitVec 64) (x : Int) : phaseIndex p x = ((p.toNat + x) / 65536 % 1024).toNat := by
  rw [phaseIndex, sar_eq]
  rfl

/-- The pointer's advance by a step, modulo 2^64 (R300, R394). -/
theorem advance_eq (p : BitVec 64) (step : BitVec 32) :
    p + step.setWidth 64 = BitVec.ofNat 64 (p.toNat + step.toNat) := by
  rw [BitVec.ofNat_add, BitVec.ofNat_toNat, BitVec.ofNat_toNat, BitVec.setWidth_eq]

/-- The modulation levels as the integers of R303. -/
theorem natCast_modulationLevel : ∀ f : BitVec 3,
    (modulationLevel f : Int) = [16, 8, 4, 2, 1, 32, 64, 128].getD f.toNat 0 := by decide

theorem modulationInput_eq (t : Slot) (v : Int) :
    modulationInput t v = v * 2 ^ 8 * [16, 8, 4, 2, 1, 32, 64, 128].getD t.feedback.toNat 0 := by
  rw [modulationInput, natCast_modulationLevel]
  rfl

/-- The modulation input is the one of its kind: none, the average of the feedback words, or a value scaled by the
slot's modulation level (R300, R302, R303). -/
theorem readInput_input {t : Slot} {inp : OpInput} {x : Int} (hnone : inp = .none → x = 0)
    (hfeedback : inp = .feedback → x = (t.fbMod0.toInt + t.fbMod1.toInt).tdiv 2)
    (hvalue : ∀ v, inp = .value v → x = v * 2 ^ 8 * [16, 8, 4, 2, 1, 32, 64, 128].getD t.feedback.toNat 0) :
    (readInput t inp).1 = x := by
  cases inp with
  | none => exact (hnone rfl).symm
  | feedback => exact (hfeedback rfl).symm
  | value v => exact (modulationInput_eq t v).trans (hvalue v rfl).symm

/-- An operator evaluation from the slot as ticked and its modulation input (R300, R301). -/
theorem calculateOp_eq (c : Config) (t : Slot) {t1 : Slot} {inp : OpInput} {x : Int} (ht : slotTick c t = t1)
    (hx : (readInput t1 inp).1 = x) :
    calculateOp c t inp =
      (waveAt t1.waveform ((t1.stepptr.toNat + x) / 65536 % 1024).toNat * slotVolume c t1 / 65536,
        { t1 with
          stepptr := BitVec.ofNat 64 (t1.stepptr.toNat + t1.step.toNat)
          fbMod0 := if inp = .feedback then t1.fbMod1 else t1.fbMod0 }) := by
  simp only [calculateOp, ht, hx, readInput_slot, scaled_eq, phaseIndex_eq, advance_eq]

/-- A PFM evaluation from the slot as ticked and its modulation input: the memory is read in place of the wave, and the
pointer moves as a PCM voice's does (R341). -/
theorem pfmOp_eq (c : Config) (m : Rom) (t : Slot) {t1 : Slot} {inp : OpInput} {x : Int} (ht : slotTick c t = t1)
    (hx : (readInput t1 inp).1 = x) :
    pfmOp c m t inp =
      (pcmSample m t1 (sampleIndex c t1 (t1.stepptr.toInt + x)) * slotVolume c t1 / 65536,
        loopCheck (pcmAdvance { t1 with fbMod0 := if inp = .feedback then t1.fbMod1 else t1.fbMod0 })) := by
  simp only [pfmOp, ht, hx, readInput_slot, scaled_eq, advanceAndLoop]
  rfl

/-- Settles O40: the two ticks give the LFO's fields and the step, and both evaluations follow from the slot as ticked
and its modulation input. -/
theorem operatorsFollowTheFourSteps : Obligations.OperatorsFollowTheFourSteps := by
  unfold Obligations.OperatorsFollowTheFourSteps
  rintro c m t _ inp x rfl hnone hfeedback hvalue
  have hinput : (readInput (slotTick c t) inp).1 = x := readInput_input hnone hfeedback hvalue
  obtain ⟨phase, amplitude, phasemod, step⟩ := slotTick_lfo c t
  rw [calculateOp_eq c t rfl hinput, pfmOp_eq c m t rfl hinput]
  exact ⟨phase, amplitude, phasemod, step, slotTick_frame c t, rfl, rfl, rfl, rfl⟩

end Sys2Proof.Machine
end

section
/-! PROOFS. The values around an operator evaluation (spec/45_operator.md): the phase index as bits of the exact sum (R301),
the word that `set_feedback` stores (R304), the slot volume (R305). -/

namespace Sys2Proof.Machine

open Sys2Proof

/-! ### The phase index -/

/-- The phase index as an integer: the remainder is never negative, so the model's cast to a natural number loses
nothing (R301). -/
theorem natCast_phaseIndex (p : BitVec 64) (x : Int) :
    (phaseIndex p x : Int) = (p.toNat + x) / 65536 % 1024 := by
  rw [phaseIndex_eq]
  exact Int.toNat_of_nonneg (Int.emod_nonneg _ (by decide))

/-- The two's-complement word of a pointer and an exact integer summed: the exact sum modulo 2^64 (R301). -/
theorem natCast_toNat_add_ofInt (p : BitVec 64) (x : Int) :
    ((p + BitVec.ofInt 64 x).toNat : Int) = (p.toNat + x) % 2 ^ 64 := by
  have hx : ((BitVec.ofInt 64 x).toNat : Int) = x % 2 ^ 64 := by
    rw [BitVec.toNat_ofInt]
    exact Int.toNat_of_nonneg (Int.emod_nonneg _ (by decide))
  rw [BitVec.toNat_add, Int.natCast_mod, Int.natCast_add, hx]
  exact Int.add_emod_emod ..

/-- Settles O42: bits 25..16 lie below bit 64, so they are the same in the exact sum and in its 64-bit word. -/
theorem phaseIndexIsBitsOfTheExactSum : Obligations.PhaseIndexIsBitsOfTheExactSum := by
  unfold Obligations.PhaseIndexIsBitsOfTheExactSum
  intro p x
  have hindex := natCast_phaseIndex p x
  have hsum := natCast_toNat_add_ofInt p x
  refine ⟨hindex, ?_⟩
  rw [BitVec.extractLsb'_toNat, Nat.shiftRight_eq_div_pow]
  omega

/-! ### The feedback word -/

/-- The feedback levels as the integers of R304. -/
theorem natCast_feedbackLevel : ∀ f : BitVec 3,
    (feedbackLevel f : Int) = [0, 1, 2, 4, 8, 16, 32, 64].getD f.toNat 0 := by decide

theorem feedbackLevel_le : ∀ f : BitVec 3, feedbackLevel f ≤ 64 := by decide

theorem setFeedback_fbMod1 (t : Slot) (v : Int) :
    (setFeedback t v).fbMod1 = BitVec.ofInt 64 ((v * 256 * feedbackLevel t.feedback).tdiv 4) := rfl

theorem setFeedback_frame (t : Slot) (v : Int) : { setFeedback t v with fbMod1 := t.fbMod1 } = t := rfl

/-- With `feedback = 0` the level is 0, and so is the word stored (R304). -/
theorem setFeedback_fbMod1_of_feedback_zero {t : Slot} (h : t.feedback = 0#3) (v : Int) :
    (setFeedback t v).fbMod1 = 0#64 := by
  have hlevel : feedbackLevel t.feedback = 0 := by rw [h]; rfl
  rw [setFeedback_fbMod1, hlevel, Int.natCast_zero, Int.mul_zero]
  rfl

/-- The word that `set_feedback` stores for an operator result, or for the sum of two, is far inside the signed 64-bit
range: the quotient is at most 2^28 in size (R304, R309). -/
theorem setFeedback_fbMod1_toInt (t : Slot) {v : Int} (hlo : -65536 ≤ v) (hhi : v ≤ 65536) :
    (setFeedback t v).fbMod1.toInt = (v * 256 * feedbackLevel t.feedback).tdiv 4 := by
  have habs : (v * 256 * feedbackLevel t.feedback).natAbs ≤ 65536 * 256 * 64 := by
    rw [Int.natAbs_mul, Int.natAbs_natCast]
    exact Nat.mul_le_mul (by omega) (feedbackLevel_le _)
  have hquot : ((v * 256 * feedbackLevel t.feedback).tdiv 4).natAbs ≤ 2 ^ 28 := by
    rw [Int.natAbs_tdiv]
    exact Nat.div_le_of_le_mul habs
  rw [setFeedback_fbMod1]
  exact BitVec.toInt_ofInt_eq_self (by decide) (by omega) (by omega)

/-- Settles O43: the quotient is the model's by the table of levels; the frame, the zero level and the exact range are
their own lemmas. -/
theorem setFeedbackStoresAQuarterOfTheProduct : Obligations.SetFeedbackStoresAQuarterOfTheProduct := by
  unfold Obligations.SetFeedbackStoresAQuarterOfTheProduct
  rintro t v q rfl
  rw [← natCast_feedbackLevel]
  exact ⟨setFeedback_fbMod1 t v, setFeedback_frame t v, fun hzero => setFeedback_fbMod1_of_feedback_zero hzero v,
    setFeedback_fbMod1_toInt t⟩

/-! ### The slot volume -/

/-- The slot volume with its shifts as divisions (R305). -/
theorem slotVolume_eq (c : Config) (t : Slot) :
    slotVolume c t =
      evAt (255 - t.volume / 65536).toNat * alfoGainAt c t.ams t.lfoAmplitude / 65536 * tlAt t.tl.toNat / 65536 := by
  rw [slotVolume, sar_eq, Nat.shiftRight_eq_div_pow, Nat.shiftRight_eq_div_pow]
  rfl

/-- Settles O44, by the formula with divisions and the bound of 1.0 that every gain in the product obeys. -/
theorem slotVolumeIsTheShiftedProduct : Obligations.SlotVolumeIsTheShiftedProduct := by
  unfold Obligations.SlotVolumeIsTheShiftedProduct
  exact fun c t => ⟨slotVolume_eq c t, fun hconfig _ => slotVolume_le hconfig t⟩

end Sys2Proof.Machine
end

section
/-! PROOFS. The rendering dispatch rows (spec/46_algorithms.md): the unit that a dispatch word runs and its frame
(section 1), and the sequences of the 28 network rows with their seats (sections 3 to 5). -/

namespace Sys2Proof.Machine

open Sys2Proof

/-! ### The unit of a dispatch word -/

theorem exec_decodeAlg0 (alg : BitVec 4) (s : State) :
    exec (decodeAlg0 alg) s = .next (renderNetwork (routing0 alg) .a s) := by
  obtain ⟨number⟩ := alg
  fin_cases number <;> rfl

theorem exec_decodeAlg1 (alg : BitVec 4) (s : State) :
    exec (decodeAlg1 alg) s = .next (renderNetwork (routing1 alg) s.pos.pair s) := by
  obtain ⟨number⟩ := alg
  fin_cases number <;> rfl

theorem exec_decodeAlg2 (alg : BitVec 4) (s : State) :
    exec (decodeAlg2 alg) s = .next (renderNetwork (routing2 alg) .a s) := by
  obtain ⟨number⟩ := alg
  fin_cases number <;> rfl

/-- The row of a dispatch word runs the unit that the word selects (R105, R330). -/
theorem exec_decode_al (a : BitVec 6) (s : State) : exec (decode (.al a)) s = .next (renderSelected a s) := by
  show exec (decodeDispatch a) s = _
  unfold decodeDispatch renderSelected
  generalize a.extractLsb' 0 4 = alg
  generalize a.extractLsb' 4 2 = sync
  obtain ⟨mode⟩ := sync
  fin_cases mode
  · exact exec_decodeAlg0 alg s
  · exact exec_decodeAlg1 alg s
  · exact exec_decodeAlg2 alg s
  · rfl

/-- Settles O34: the row runs the selected unit, which renders within the group and keeps the position; a marker that it
sets belongs to a slot `4 * k` of the group. -/
theorem dispatchRowsChangeOnlyTheirGroup : Obligations.DispatchRowsChangeOnlyTheirGroup := by
  unfold Obligations.DispatchRowsChangeOnlyTheirGroup
  intro a s
  have hpos := pos_renderSelected a s
  obtain ⟨hframe, hmix, hacc, hkept, hother, hset, hnew, -⟩ := rendered_renderSelected a s
  refine ⟨_, exec_decode_al a s, ?_, hmix, hacc, fun i => (hkept i).1, hother, hset, fun k hk => ?_⟩
  · rw [← hpos] at hframe
    exact hframe
  · refine (hnew k hk).imp_right fun ⟨i, hgroup, hi⟩ => ?_
    rw [← hi]
    exact hgroup

/-! ### The sequences of the network rows -/

/-- The slot number of a place: 12 times its bank, plus the group (R30, R330). -/
theorem val_seat (u : Unit4) (k : Seat) : (u.seat k).val = 12 * (seatBank u.pair k).val + u.group.val := rfl

/-- A row that renders a routing runs any sequence that the stages of the routing spell out. -/
theorem exec_of_routing {i : Instr} {s : State} {p : Pair} {f : Nat → State → State} (r : Routing)
    (hrow : exec i s = .next (renderNetwork r p s))
    (hseq : ∀ n, sequenceOf r ⟨s.pos.group, p⟩ n r.stages Locals.zero = f n) :
    exec i s = .next (gatedUnit ((⟨s.pos.group, p⟩ : Unit4).seat .s1) f s) := by
  rw [hrow, renderNetwork_eq, funext hseq]

/-- Settles O35: each row's routing, read stage by stage, is the sequence claimed. -/
theorem serialAlgorithmRowsRunTheirSequences : Obligations.SerialAlgorithmRowsRunTheirSequences := by
  unfold Obligations.SerialAlgorithmRowsRunTheirSequences
  rintro s _ rfl
  have hseats : ∀ k, ((⟨s.pos.group, .a⟩ : Unit4).seat k).val = s.pos.group.val + 12 * (seatBank .a k).val :=
    fun k => (val_seat _ k).trans (Nat.add_comm _ _)
  exact ⟨⟨hseats .s1, hseats .s2, hseats .s3, hseats .s4⟩,
    exec_of_routing routing0_0 rfl fun _ => rfl, exec_of_routing routing0_1 rfl fun _ => rfl,
    exec_of_routing routing0_2 rfl fun _ => rfl, exec_of_routing routing0_3 rfl fun _ => rfl,
    exec_of_routing routing0_4 rfl fun _ => rfl, exec_of_routing routing0_5 rfl fun _ => rfl,
    exec_of_routing routing0_6 rfl fun _ => rfl, exec_of_routing routing0_7 rfl fun _ => rfl⟩

/-- Settles O36: each row's routing, read stage by stage, is the sequence claimed. -/
theorem parallelAlgorithmRowsRunTheirSequences : Obligations.ParallelAlgorithmRowsRunTheirSequences := by
  unfold Obligations.ParallelAlgorithmRowsRunTheirSequences
  rintro s _ rfl
  exact ⟨exec_of_routing routing0_8 rfl fun _ => rfl, exec_of_routing routing0_9 rfl fun _ => rfl,
    exec_of_routing routing0_10 rfl fun _ => rfl, exec_of_routing routing0_11 rfl fun _ => rfl,
    exec_of_routing routing0_12 rfl fun _ => rfl, exec_of_routing routing0_13 rfl fun _ => rfl,
    exec_of_routing routing0_14 rfl fun _ => rfl, exec_of_routing routing0_15 rfl fun _ => rfl⟩

/-- The leader and the second slot of a pair: banks 0 and 2 in pair A, banks 1 and 3 in pair B (R370). -/
theorem val_seat_pair (g : GroupIx) (p : Pair) :
    ((⟨g, p⟩ : Unit4).seat .s1).val = (if p = .a then g.val else g.val + 12) ∧
      ((⟨g, p⟩ : Unit4).seat .s3).val = (if p = .a then g.val + 24 else g.val + 36) := by
  rw [val_seat, val_seat, Nat.add_comm, Nat.add_comm _ g.val]
  cases p with
  | a => exact ⟨rfl, rfl⟩
  | b => exact ⟨rfl, rfl⟩

/-- Settles O37: the routings do not name the pair, so on either pair the stages are the sequence claimed. -/
theorem pairAlgorithmRowsRunTheirSequences : Obligations.PairAlgorithmRowsRunTheirSequences := by
  unfold Obligations.PairAlgorithmRowsRunTheirSequences
  rintro s hi _ rfl
  exact ⟨val_seat_pair s.pos.group s.pos.pair,
    exec_of_routing routing1_0 rfl fun _ => rfl, exec_of_routing routing1_1 rfl fun _ => rfl,
    exec_of_routing routing1_2 rfl fun _ => rfl, exec_of_routing routing1_3 rfl fun _ => rfl⟩

/-- Settles O38: each row's routing, read stage by stage, is the sequence claimed. -/
theorem threeOperatorRowsRunTheirSequences : Obligations.ThreeOperatorRowsRunTheirSequences := by
  unfold Obligations.ThreeOperatorRowsRunTheirSequences
  rintro s hi _ rfl
  exact ⟨exec_of_routing routing2_0 rfl fun _ => rfl, exec_of_routing routing2_1 rfl fun _ => rfl,
    exec_of_routing routing2_2 rfl fun _ => rfl, exec_of_routing routing2_3 rfl fun _ => rfl,
    exec_of_routing routing2_4 rfl fun _ => rfl, exec_of_routing routing2_5 rfl fun _ => rfl,
    exec_of_routing routing2_6 rfl fun _ => rfl, exec_of_routing routing2_7 rfl fun _ => rfl⟩

end Sys2Proof.Machine
end

section
/-! PROOFS. The loop engine of the PCM reader (spec/47_pcm_reader.md): the snapped pointer and the alternate loop's turn at
the end address (R396). -/

namespace Sys2Proof.Machine

open Sys2Proof

/-- A snapped pointer fits its 64-bit word: a 23-bit address and a 16-bit fraction are below 2^39. -/
theorem toInt_ofInt_snapTo (a : Addr) (p : Int) :
    (BitVec.ofInt 64 (snapTo a p)).toInt = a.toNat * 65536 + p % 65536 := by
  have ha : a.toNat < 8388608 := a.isLt
  unfold snapTo
  exact BitVec.toInt_ofInt_eq_self (by decide) (by omega) (by omega)

/-- The firing of the alternate loop (R396). -/
theorem loopCheck_alternate {t : Slot} (hdir : t.loopDirection = .forward) (halt : t.altloop = true)
    (hpast : (t.endaddr.toNat : Int) < t.stepptr.toInt / 65536) :
    loopCheck t =
      ({ t with loopDirection := .reverse, stepptr := BitVec.ofInt 64 (snapTo t.endaddr t.stepptr.toInt) }, true) := by
  have hsar : (t.endaddr.toNat : Int) < sar t.stepptr.toInt 16 := by rw [sar_eq]; exact hpast
  simp only [loopCheck, hdir, if_pos hsar, if_pos halt]

/-- Settles O55: the firing snaps to the end address, and such a pointer fits its word. -/
theorem alternateLoopTurnsAtTheEnd : Obligations.AlternateLoopTurnsAtTheEnd := by
  unfold Obligations.AlternateLoopTurnsAtTheEnd
  intro t hdir halt hpast
  have hfires := loopCheck_alternate hdir halt hpast
  refine ⟨?event, loopCheck_frame t, ?direction, ?pointer⟩
  case event => rw [hfires]
  case direction => rw [hfires]
  case pointer => rw [hfires]; exact toInt_ofInt_snapTo t.endaddr t.stepptr.toInt

end Sys2Proof.Machine
end

section
/-! PROOFS. The PCM voice's path into the buffers (spec/48_accumulator_mixer.md sections 1 and 2; spec/47_pcm_reader.md
section 1): what one tick adds to each channel (R420 to R424, R434) and what it does to its slot (R392, R398). -/

namespace Sys2Proof.Machine

open Sys2Proof

/-! ### The channels of a frame -/

/-- A channel of a frame (R40). -/
def Frame.channel (f : Frame) : Channel → BitVec 32
  | .ch0 => f.ch0
  | .ch1 => f.ch1
  | .ch2 => f.ch2
  | .ch3 => f.ch3

@[simp] theorem channel_combine (f : Frame) (op : BitVec 32 → Int → BitVec 32) (v : Channel → Int) (k : Channel) :
    (f.combine op v).channel k = op (f.channel k) (v k) := by
  cases k <;> rfl

/-- A channel and the slot's level for it, listed side by side, belong to one channel number. -/
theorem channel_of_mem {v : Slot} {ch : Frame → BitVec 32} {lv : BitVec 4}
    (h : (ch, lv) ∈
      [(Frame.ch0, v.ch0Level), (Frame.ch1, v.ch1Level), (Frame.ch2, v.ch2Level), (Frame.ch3, v.ch3Level)]) :
    ∃ k : Channel, ch = (·.channel k) ∧ lv = v.level k := by
  simp only [List.mem_cons, List.not_mem_nil, or_false, Prod.mk.injEq] at h
  obtain h | h | h | h := h
  · exact ⟨.ch0, h⟩
  · exact ⟨.ch1, h⟩
  · exact ⟨.ch2, h⟩
  · exact ⟨.ch3, h⟩

/-! ### What a PCM sample adds -/

theorem accumulationFactor_eq (tl : BitVec 7) : accumulationFactor tl = if tl = 0#7 then 2 else tl.toNat * 2 := by
  have hzero : tl.toNat = 0 ↔ tl = 0#7 := BitVec.toNat_inj (y := 0#7)
  simp only [accumulationFactor, hzero]

/-- The ACC path with its shifts as divisions: gain, 18-bit saturation, restore shift, saturating add (R421 to R424). -/
theorem addSaturated_accPart (c : Config) (v : Slot) (smp : Int) (k : Channel) (x : BitVec 32) :
    addSaturated x (accPart c v smp k) =
      BitVec.ofInt 32 (clamp (x.toInt + clamp (smp * if v.tl = 0#7 then 2 else v.tl.toNat * 2) (-131072) 131071 / 4 *
        attnAt c (v.level k) / 65536) (-131072) 131071) := by
  rw [addSaturated, accPart, accSample, sar_eq, sar_eq, accumulationFactor_eq]
  rfl

/-- The direct path with its shifts as divisions (R434). -/
theorem addDirect_directPart (c : Config) (v : Slot) (smp : Int) (k : Channel) (x : BitVec 32) :
    addDirect x (directPart c v smp k) =
      BitVec.ofInt 32 (x.toInt + smp * min (slotVolume c v * attnAt c (v.level k) / 65536) 65536 / 65536) := by
  rw [addDirect, directPart, sar_eq, Nat.shiftRight_eq_div_pow]
  push_cast
  rfl

/-! ### The tick -/

@[simp] theorem slot_loopEvent (s : State) (i j : SlotIx) (b : Bool) : (s.loopEvent i b).slot j = s.slot j := by
  rw [State.slot, slots_loopEvent]
  rfl

/-- The tick from the slot as ticked and the sample fetched at the old pointer: the mix, then the advance and the loop
check (R392). -/
theorem pcmTick_eq (ix : SlotIx) (i : Nat) (s : State) {v : Slot} {smp : Int} (hv : slotTick s.config (s.slot ix) = v)
    (hsmp : pcmSample s.rom (s.slot ix) (sampleIndex s.config (s.slot ix) (s.slot ix).stepptr.toInt) = smp) :
    pcmTick ix i s =
      ((if v.accon then s.mixAcc i (accPart s.config v smp) else s.mixDirect i (directPart s.config v smp)).setSlot ix
        (loopCheck (pcmAdvance v)).1).loopEvent ix (loopCheck (pcmAdvance v)).2 := by
  rw [← hv, ← hsmp]
  rfl

section Tick

variable (ix : SlotIx) (i : Nat) (s : State) {v : Slot} {smp : Int}

theorem slot_pcmTick (hv : slotTick s.config (s.slot ix) = v) (j : SlotIx) :
    (pcmTick ix i s).slot j = if j = ix then (loopCheck (pcmAdvance v)).1 else s.slot j := by
  rw [pcmTick_eq ix i s hv rfl, slot_loopEvent, slot_setSlot]
  split_ifs <;> rfl

theorem getLsbD_endStatus_pcmTick (hv : slotTick s.config (s.slot ix) = v) (k : Nat) :
    (pcmTick ix i s).endStatus.getLsbD k =
      (s.endStatus.getLsbD k || ((loopCheck (pcmAdvance v)).2 && decide (ix.val = 4 * k))) := by
  rw [pcmTick_eq ix i s hv rfl, getLsbD_loopEvent, endStatus_setSlot]
  split_ifs <;> rfl

theorem mixbuf_pcmTick (hv : slotTick s.config (s.slot ix) = v)
    (hsmp : pcmSample s.rom (s.slot ix) (sampleIndex s.config (s.slot ix) (s.slot ix).stepptr.toInt) = smp) :
    (pcmTick ix i s).mixbuf =
      if v.accon then s.mixbuf else s.mixbuf.modify i fun f => f.combine addDirect (directPart s.config v smp) := by
  rw [pcmTick_eq ix i s hv hsmp, mixbuf_loopEvent, mixbuf_setSlot]
  split_ifs <;> rfl

theorem accbuf_pcmTick (hv : slotTick s.config (s.slot ix) = v)
    (hsmp : pcmSample s.rom (s.slot ix) (sampleIndex s.config (s.slot ix) (s.slot ix).stepptr.toInt) = smp) :
    (pcmTick ix i s).accbuf =
      if v.accon then s.accbuf.modify i fun f => f.combine addSaturated (accPart s.config v smp) else s.accbuf := by
  rw [pcmTick_eq ix i s hv hsmp, accbuf_loopEvent, accbuf_setSlot]
  split_ifs <;> rfl

end Tick

/-- A modified sample of a buffer, read back through one channel. -/
theorem channel_getElem?_modify {buf : List Frame} {i : Nat} {a : Frame} (h : buf[i]? = some a)
    (op : BitVec 32 → Int → BitVec 32) (w : Channel → Int) (k : Channel) :
    ∃ b, (buf.modify i fun f => f.combine op w)[i]? = some b ∧ b.channel k = op (a.channel k) (w k) :=
  ⟨a.combine op w, by rw [List.getElem?_modify, h]; simp, channel_combine a op w k⟩

/-- Settles O56: the state after the tick is read field by field; only the buffer that `accon` selects is touched, at
sample `i`. -/
theorem pcmTickMixesThenAdvances : Obligations.PcmTickMixesThenAdvances := by
  unfold Obligations.PcmTickMixesThenAdvances
  rintro s _ ix i smp _ v ch lv rfl hv hsmp rfl hmem
  obtain ⟨k, rfl, rfl⟩ := channel_of_mem hmem
  have hmixbuf := mixbuf_pcmTick ix i s hv.symm hsmp.symm
  have haccbuf := accbuf_pcmTick ix i s hv.symm hsmp.symm
  have hpos := pos_pcmTick ix i s
  obtain ⟨hframe, hmix, hacc, -⟩ := rendered_pcmTick (r := fun _ => True) ix i s trivial
  rw [← hpos] at hframe
  refine ⟨hframe, slot_pcmTick ix i s hv.symm, getLsbD_endStatus_pcmTick ix i s hv.symm, hmix, hacc, fun j hj => ?others,
    fun haccon => ?accPath, fun haccon => ?directPath⟩
  case others =>
    have hother : ∀ (buf : List Frame) (g : Frame → Frame), (buf.modify i g)[j]? = buf[j]? := fun buf g => by
      rw [List.getElem?_modify]; simp [Ne.symm hj]
    rw [hmixbuf, haccbuf]
    split
    · exact ⟨rfl, hother _ _⟩
    · exact ⟨hother _ _, rfl⟩
  case accPath =>
    rw [hmixbuf, haccbuf, if_pos haccon, if_pos haccon]
    refine ⟨rfl, fun a ha => ?_⟩
    rw [← addSaturated_accPart]
    exact channel_getElem?_modify ha _ _ k
  case directPath =>
    rw [hmixbuf, haccbuf, haccon]
    refine ⟨rfl, fun a ha => ?_⟩
    rw [← addDirect_directPart]
    exact channel_getElem?_modify ha _ _ k

end Sys2Proof.Machine
end

section
/-! PROOFS. A whole call of `update` (spec/49_update_engine.md section 1): the groups rendered are the rows they select, in
order (R105, R450, R451), and the folds that end the call (R435, R436). -/

namespace Sys2Proof.Machine

open Sys2Proof

/-! ### Rows and units -/

/-- The row of the current dispatch word runs the unit of the position (R105). -/
theorem runRow_eq (s : State) : runRow s = renderUnit s := by
  rw [runRow, exec_decode_al]
  rfl

/-- A PCM voice of the group being rendered, in the words of the claims (R379, R451). -/
theorem renderVoice_eq (b : Bank) (s : State) :
    renderVoice b s = gatedUnit (slotIx b s.pos.group) (pcmTick (slotIx b s.pos.group)) s := renderGated_eq _ _ s

/-- The rows of a group are its units: the same three sync modes, each row its unit, and the row before the PCM voice of
sync 2 leaves the position at the group (R451). -/
theorem renderRows_eq (s : State) (g : GroupIx) : renderRows s g = renderGroup s g := by
  have hvoice : renderVoice 3 (renderUnit (s.at g .a)) =
      gatedUnit (slotIx 3 g) (pcmTick (slotIx 3 g)) (renderUnit (s.at g .a)) := by
    rw [renderVoice_eq, pos_renderUnit]
    rfl
  unfold renderRows renderGroup
  simp only [runRow_eq, hvoice]
  generalize (s.group g).sync = mode
  obtain ⟨mode⟩ := mode
  fin_cases mode <;> rfl

/-- The call's state before the folds (R450). -/
theorem foldl_renderRows (s : State) (n : Nat) :
    [0, 1, 2, 3, 4, 5, 6, 7, 8, 9, 10, 11].foldl renderRows
      { s with mixbuf := List.replicate n ⟨0, 0, 0, 0⟩, accbuf := List.replicate n ⟨0, 0, 0, 0⟩ } =
    renderAll (s.openCall n) := by
  rw [funext fun s => funext (renderRows_eq s)]
  rfl

/-! ### The folds -/

/-- One side of the stereo fold with its shifts as divisions (R436). -/
theorem stereoSide_eq (front rear : BitVec 32) :
    stereoSide front rear = BitVec.ofInt 32 ((front.toInt + rear.toInt * 5 / 256) / 4) := by
  rw [stereoSide, sar_eq, sar_eq]
  rfl

@[simp] theorem slots_closeCall (s : State) : s.closeCall.slots = s.slots := rfl

@[simp] theorem endStatus_closeCall (s : State) : s.closeCall.endStatus = s.endStatus := rfl

/-- The arrays a call returns: the ACC buffer folded into the direct buffer, then the four channels into two (R435,
R436). -/
theorem result_closeCall (s : State) :
    s.closeCall.result = .samples
      (List.zipWith (fun m a =>
        BitVec.ofInt 32 (((m.ch0 + a.ch0).toInt + (m.ch2 + a.ch2).toInt * 5 / 256) / 4)) s.mixbuf s.accbuf)
      (List.zipWith (fun m a =>
        BitVec.ofInt 32 (((m.ch1 + a.ch1).toInt + (m.ch3 + a.ch3).toInt * 5 / 256) / 4)) s.mixbuf s.accbuf) := by
  simp only [State.closeCall, List.map_zipWith, Frame.left, Frame.right, foldFrame, stereoSide_eq]

/-- Rendering keeps both buffers as long as they were opened (R450). -/
theorem length_renderAll_openCall (s : State) (n : Nat) :
    (renderAll (s.openCall n)).mixbuf.length = n ∧ (renderAll (s.openCall n)).accbuf.length = n := by
  obtain ⟨-, hmix, hacc, -⟩ := rendered_renderAll (s.openCall n)
  rw [hmix, hacc, mixbuf_openCall, accbuf_openCall, List.length_replicate]
  exact ⟨rfl, rfl⟩

/-- Settles O30: the rows in order are the groups rendered, and the call ends with the folds. -/
theorem updateRunsTheSelectedRowsInOrder : Obligations.UpdateRunsTheSelectedRowsInOrder := by
  unfold Obligations.UpdateRunsTheSelectedRowsInOrder
  intro n s t u hupdate hrows
  have ht : (renderAll (s.openCall n)).closeCall = t := Host.Outcome.next.inj hupdate
  have hu : u = renderAll (s.openCall n) := hrows.trans (foldl_renderRows s n)
  obtain ⟨hmix, hacc⟩ := length_renderAll_openCall s n
  rw [← ht, hu]
  exact ⟨hmix, hacc, slots_closeCall _, endStatus_closeCall _, result_closeCall _⟩

end Sys2Proof.Machine
end

section
/-! PROOFS. The ranges of the mix buffers during a call (spec/48_accumulator_mixer.md section 3): what each unit may add to
the direct buffer, counted in voices of 16 bits, and the bounds after each group and after the fold (R428, R437). -/

namespace Sys2Proof.Machine

open Sys2Proof

/-! ### One frame -/

/-- Every channel of the frame is within ±`b`. -/
def FrameWithin (b : Nat) (f : Frame) : Prop := ∀ k : Channel, (f.channel k).toInt.natAbs ≤ b

theorem forall_mem_channels {p : BitVec 32 → Prop} {f : Frame} (h : ∀ k : Channel, p (f.channel k)) :
    ∀ x ∈ [f.ch0, f.ch1, f.ch2, f.ch3], p x := by
  simp only [List.forall_mem_cons, List.not_mem_nil, false_implies, implies_true, and_true]
  exact ⟨h .ch0, h .ch1, h .ch2, h .ch3⟩

theorem frameWithin_zero (b : Nat) : FrameWithin b Frame.zero := fun k => by
  cases k <;> exact Nat.zero_le b

theorem FrameWithin.mono {b b' : Nat} {f : Frame} (h : FrameWithin b f) (hb : b ≤ b') : FrameWithin b' f :=
  fun k => (h k).trans hb

/-- Wrapping to a signed word never makes a number larger in size. -/
theorem natAbs_bmod_le (v : Int) : (v.bmod (2 ^ 32)).natAbs ≤ v.natAbs := by
  rw [Int.bmod_def]
  split <;> omega

/-- A result of an operator or a PCM sample: a signed 16-bit value (R309, R393). -/
def Sixteen (v : Int) : Prop := -32768 ≤ v ∧ v ≤ 32767

/-- What a 16-bit carrier adds to a channel is of 16 bits: the attenuation is at most 1 (R333, R432). -/
theorem sixteen_carrierPart {c : Config} (hc : GoodConfig c) (t : Slot) {out : Int} (h : Sixteen out) (k : Channel) :
    Sixteen (carrierPart c t out k) := scaled_range h.1 h.2 (attnAt_le hc _)

/-- What a direct PCM sample adds to a channel is of 16 bits: its gain is cut to 1 (R434). -/
theorem sixteen_directPart (c : Config) (t : Slot) {smp : Int} (h : Sixteen smp) (k : Channel) :
    Sixteen (directPart c t smp k) := scaled_range h.1 h.2 (min_le_right _ _)

/-- A frame grows by at most 32768 when 16-bit values are added to its channels (R433). -/
theorem FrameWithin.addDirect {b : Nat} {f : Frame} {v : Channel → Int} (h : FrameWithin b f) (hv : ∀ k, Sixteen (v k)) :
    FrameWithin (b + 32768) (f.combine addDirect v) := fun k => by
  obtain ⟨hlo, hhi⟩ := hv k
  have hsum := natAbs_bmod_le ((f.channel k).toInt + v k)
  have hb := h k
  rw [channel_combine, Machine.addDirect, BitVec.toInt_ofInt]
  omega

theorem goodAccFrame_zero : GoodAccFrame Frame.zero := by
  unfold GoodAccFrame Eighteen
  decide

theorem GoodAccFrame.frameWithin {f : Frame} (h : GoodAccFrame f) : FrameWithin 131072 f := by
  obtain ⟨⟨l0, h0⟩, ⟨l1, h1⟩, ⟨l2, h2⟩, ⟨l3, h3⟩⟩ := h
  intro k
  cases k <;> simp only [Frame.channel] <;> omega

/-- The fold adds the bounds of the two buffers (R435). -/
theorem frameWithin_foldFrame {b b' : Nat} {m a : Frame} (hm : FrameWithin b m) (ha : FrameWithin b' a) :
    FrameWithin (b + b') (foldFrame m a) := fun k => by
  have hchannel : (foldFrame m a).channel k = m.channel k + a.channel k := by cases k <;> rfl
  have hsum := natAbs_bmod_le ((m.channel k).toInt + (a.channel k).toInt)
  have hmk := hm k
  have hak := ha k
  rw [hchannel, BitVec.toInt_add]
  omega

/-! ### What an operation adds to the direct buffer -/

/-- The frame at sample `j` of the direct buffer, if there is one, is within ±`b`. -/
def SampleWithin (b : Nat) (s : State) (j : Nat) : Prop := ∀ m, s.mixbuf[j]? = some m → FrameWithin b m

/-- An operation that adds at most `n j` voices of 16 bits to each channel of sample `j`, and keeps the configuration. -/
structure AddsVoices (n : Nat → Nat) (s t : State) : Prop where
  config : t.config = s.config
  sample : GoodConfig s.config → ∀ b j, SampleWithin b s j → SampleWithin (b + n j * 32768) t j

section AddsVoices

variable {n n' : Nat → Nat} {s t u : State}

theorem addsVoices_of_mixbuf_eq (hc : t.config = s.config) (hm : t.mixbuf = s.mixbuf) : AddsVoices n s t where
  config := hc
  sample _ b _ h m hj := (h m (hm ▸ hj)).mono (Nat.le_add_right b _)

theorem AddsVoices.trans (h : AddsVoices n s t) (h' : AddsVoices n' t u) : AddsVoices (n + n') s u where
  config := h'.config.trans h.config
  sample hc b j hb := by
    have hu := h'.sample (h.config ▸ hc) _ j (h.sample hc b j hb)
    rwa [Nat.add_assoc, ← Nat.add_mul] at hu

theorem AddsVoices.mono (h : AddsVoices n s t) (hn : ∀ j, n j ≤ n' j) : AddsVoices n' s t where
  config := h.config
  sample hc b j hb m hm :=
    (h.sample hc b j hb m hm).mono (Nat.add_le_add_left (Nat.mul_le_mul_right _ (hn j)) b)

/-- A fold adds what its operations add, times their number. -/
theorem addsVoices_foldl {α : Type} {f : State → α → State} (hf : ∀ s a, AddsVoices n s (f s a)) :
    ∀ (l : List α) (s : State), AddsVoices (fun j => l.length * n j) s (l.foldl f s)
  | [], _ => addsVoices_of_mixbuf_eq rfl rfl
  | a :: l, s => ((hf s a).trans (addsVoices_foldl hf l (f s a))).mono fun j => by
    rw [Pi.add_apply, List.length_cons, Nat.succ_mul, Nat.add_comm]

theorem addsVoices_mixDirect (i : Nat) {v : Channel → Int} (hv : GoodConfig s.config → ∀ k, Sixteen (v k)) :
    AddsVoices (Pi.single i 1) s (s.mixDirect i v) where
  config := rfl
  sample hc b j hb m hm := by
    rw [mixbuf_mixDirect, List.getElem?_modify, Option.map_eq_map, Option.map_eq_some_iff] at hm
    obtain ⟨m', hm', rfl⟩ := hm
    by_cases hij : i = j
    · subst hij
      rw [if_pos rfl, Pi.single_eq_same, Nat.one_mul]
      exact (hb m' hm').addDirect (hv hc)
    · rw [if_neg hij]
      exact (hb m' hm').mono (Nat.le_add_right b _)

/-! ### Networks and PCM voices -/

theorem addsVoices_mixCarrier (u : Unit4) (i : Nat) {l : Locals} (k : Seat)
    (hl : GoodConfig s.config → Sixteen (l.get k)) : AddsVoices (Pi.single i 1) s (mixCarrier u i l s k) :=
  addsVoices_mixDirect i fun hc => sixteen_carrierPart hc _ (hl hc)

end AddsVoices

theorem mixbuf_evalOp (s : State) (i : SlotIx) (pfm : Bool) (inp : OpInput) :
    (s.evalOp i pfm inp).2.mixbuf = s.mixbuf := by
  unfold State.evalOp
  split
  · exact mixbuf_loopEvent _ _ _
  · rfl

theorem sixteen_evalOp {s : State} (hc : GoodConfig s.config) (i : SlotIx) (pfm : Bool) (inp : OpInput) :
    Sixteen (s.evalOp i pfm inp).1 := by
  unfold State.evalOp
  split
  · exact pfmOp_range hc _ _ _
  · exact calculateOp_range hc _ _

theorem sixteen_zero (k : Seat) : Sixteen (Locals.zero.get k) := by
  cases k <;> exact ⟨by decide, by decide⟩

theorem get_put (l : Locals) (k k' : Seat) (v : Int) : (l.put k v).get k' = if k' = k then v else l.get k' := by
  cases k <;> cases k' <;> rfl

/-- A stage leaves the direct buffer alone, and the results it has seen stay of 16 bits. -/
theorem runStage_spec (r : Routing) (u : Unit4) (x : Locals × State) (st : Stage) :
    (runStage r u x st).2.mixbuf = x.2.mixbuf ∧
      (GoodConfig x.2.config → (∀ k, Sixteen (x.1.get k)) → ∀ k, Sixteen ((runStage r u x st).1.get k)) := by
  cases st with
  | op k inp =>
    refine ⟨mixbuf_evalOp _ _ _ _, fun hc hx k' => ?_⟩
    show Sixteen ((x.1.put k _).get k')
    rw [get_put]
    split
    · exact sixteen_evalOp hc _ _ _
    · exact hx k'
  | tap k => exact ⟨rfl, fun _ hx => hx⟩

theorem foldl_runStage_spec (r : Routing) (u : Unit4) : ∀ (l : List Stage) (x : Locals × State),
    (l.foldl (runStage r u) x).2.mixbuf = x.2.mixbuf ∧
      (GoodConfig x.2.config → (∀ k, Sixteen (x.1.get k)) → ∀ k, Sixteen ((l.foldl (runStage r u) x).1.get k))
  | [], _ => ⟨rfl, fun _ hx => hx⟩
  | st :: l, x => by
    have hconfig := (rendered_runStage r u x st).config
    obtain ⟨hmix, hlocals⟩ := runStage_spec r u x st
    obtain ⟨hmix', hlocals'⟩ := foldl_runStage_spec r u l (runStage r u x st)
    exact ⟨hmix'.trans hmix, fun hc hx => hlocals' (hconfig ▸ hc) (hlocals hc hx)⟩

/-- One sample of a network adds one voice for each carrier (R330, R333). -/
theorem addsVoices_networkSample (r : Routing) (u : Unit4) (i : Nat) (s : State) :
    AddsVoices (Pi.single i r.carriers.length) s (networkSample r u i s) where
  config := (rendered_networkSample r u i s).config
  sample hc := by
    obtain ⟨hmix, hlocals⟩ := foldl_runStage_spec r u r.stages (Locals.zero, s)
    have hsixteen := hlocals hc sixteen_zero
    have hstages : AddsVoices 0 s (runStages r u s).2 := addsVoices_of_mixbuf_eq (rendered_runStages r u s).config hmix
    have hcarriers := addsVoices_foldl (fun _ k => addsVoices_mixCarrier u i k fun _ => hsixteen k) r.carriers
      (runStages r u s).2
    refine ((hstages.trans hcarriers).mono fun j => ?_).sample hc
    by_cases hj : j = i <;> simp [hj]

/-- One tick of a PCM voice adds at most one voice: its gain is at most 1, and with `accon = 1` it adds nothing to the
direct buffer (R424, R434). -/
theorem addsVoices_pcmTick (ix : SlotIx) (i : Nat) (s : State) : AddsVoices (Pi.single i 1) s (pcmTick ix i s) := by
  have hconfig := (rendered_pcmTick (r := fun _ => True) ix i s trivial).config
  have hmix := mixbuf_pcmTick ix i s rfl rfl
  split at hmix
  · exact addsVoices_of_mixbuf_eq hconfig hmix
  · have hsample : Sixteen _ :=
      pcmSample_range s.rom (s.slot ix) (sampleIndex s.config (s.slot ix) (s.slot ix).stepptr.toInt)
    have hmixed := addsVoices_mixDirect (s := s) i fun _ =>
      sixteen_directPart s.config (slotTick s.config (s.slot ix)) hsample
    exact hmixed.trans (n' := 0) (addsVoices_of_mixbuf_eq hconfig hmix)

/-! ### Units, groups and the whole call -/

/-- The samples of a unit each add to their own frame (R452). -/
theorem addsVoices_forSamples {f : Nat → State → State} {k : Nat} (hf : ∀ i s, AddsVoices (Pi.single i k) s (f i s)) :
    ∀ (n i : Nat) (s : State), AddsVoices (fun j => if i ≤ j then k else 0) s (forSamples f n i s)
  | 0, _, _ => addsVoices_of_mixbuf_eq rfl rfl
  | n + 1, i, s => ((hf i s).trans (addsVoices_forSamples hf n (i + 1) (f i s))).mono fun j => by
    rw [Pi.add_apply, Pi.single_apply]
    split_ifs <;> omega

theorem addsVoices_renderGated (gate : SlotIx) {f : Nat → State → State} {k : Nat}
    (hf : ∀ i s, AddsVoices (Pi.single i k) s (f i s)) (s : State) :
    AddsVoices (fun _ => k) s (renderGated gate f s) := by
  unfold renderGated
  split
  · exact addsVoices_forSamples hf _ 0 s
  · exact addsVoices_of_mixbuf_eq rfl rfl

theorem addsVoices_renderNetwork (r : Routing) (p : Pair) (s : State) :
    AddsVoices (fun _ => r.carriers.length) s (renderNetwork r p s) :=
  addsVoices_renderGated _ (addsVoices_networkSample r ⟨s.pos.group, p⟩) s

theorem addsVoices_renderVoice (b : Bank) (s : State) : AddsVoices (fun _ => 1) s (renderVoice b s) :=
  addsVoices_renderGated _ (addsVoices_pcmTick _) s

theorem addsVoices_renderVoices (s : State) : AddsVoices (fun _ => 4) s (renderVoices s) :=
  (((addsVoices_renderVoice 0 s).trans (addsVoices_renderVoice 1 _)).trans (addsVoices_renderVoice 2 _)).trans
    (addsVoices_renderVoice 3 _)

/-- The voices of the unit that a sync mode selects: the most carriers of its routings, or the four PCM voices (R330,
R380). -/
def unitVoices (sync : BitVec 2) : Nat :=
  match sync.toNat with
  | 1 => 2
  | 2 => 3
  | _ => 4

theorem length_carriers_le : ∀ alg : BitVec 4,
    (routing0 alg).carriers.length ≤ 4 ∧ (routing1 alg).carriers.length ≤ 2 ∧ (routing2 alg).carriers.length ≤ 3 := by
  decide

theorem addsVoices_renderSelected (sync : BitVec 2) (alg : BitVec 4) (s : State) :
    AddsVoices (fun _ => unitVoices sync) s (renderSelected (sync ++ alg) s) := by
  obtain ⟨h0, h1, h2⟩ := length_carriers_le alg
  have hsync : (sync ++ alg).extractLsb' 4 2 = sync := BitVec.extractLsb'_append_eq_left
  have halg : (sync ++ alg).extractLsb' 0 4 = alg := BitVec.extractLsb'_append_eq_right
  unfold renderSelected
  simp only [hsync, halg]
  obtain ⟨mode⟩ := sync
  fin_cases mode
  · exact (addsVoices_renderNetwork _ _ s).mono fun _ => h0
  · exact (addsVoices_renderNetwork _ _ s).mono fun _ => h1
  · exact (addsVoices_renderNetwork _ _ s).mono fun _ => h2
  · exact addsVoices_renderVoices s

/-- The unit of a group at either pair adds the voices of the group's sync mode (R105). -/
theorem addsVoices_renderUnit (s : State) (g : GroupIx) (p : Pair) :
    AddsVoices (fun _ => unitVoices (s.group g).sync) s (renderUnit (s.at g p)) := by
  have hat : AddsVoices 0 s (s.at g p) := addsVoices_of_mixbuf_eq rfl rfl
  exact (hat.trans (addsVoices_renderSelected _ _ (s.at g p))).mono fun _ => (Nat.zero_add _).le

/-- A group adds at most four voices, whichever way its slots combine (R437). -/
theorem addsVoices_renderGroup (s : State) (g : GroupIx) : AddsVoices (fun _ => 4) s (renderGroup s g) := by
  have hfirst := addsVoices_renderUnit s g .a
  have hpairB := addsVoices_renderUnit (renderUnit (s.at g .a)) g .b
  have hgroup : (renderUnit (s.at g .a)).group g = s.group g := (rendered_renderUnit (s.at g .a)).group g
  rw [hgroup] at hpairB
  unfold renderGroup
  split
  · exact addsVoices_of_mixbuf_eq rfl rfl
  · generalize (s.group g).sync = sync at hfirst hpairB
    obtain ⟨mode⟩ := sync
    fin_cases mode
    · exact hfirst
    · exact hfirst.trans hpairB
    · exact hfirst.trans (addsVoices_renderVoice 3 _)
    · exact hfirst

/-- After some groups of a call, each frame of the direct buffer is within four voices for each group (R437), and the ACC
buffer within 18 bits (R428). -/
theorem buffers_foldl_renderGroup {s : State} (hs : GoodState s) (n : Nat) (l : List GroupIx) :
    (∀ m ∈ (l.foldl renderGroup (s.openCall n)).mixbuf, FrameWithin (l.length * (4 * 32768)) m) ∧
      ∀ a ∈ (l.foldl renderGroup (s.openCall n)).accbuf, GoodAccFrame a := by
  obtain ⟨-, hconfig, -⟩ := hs
  constructor
  · intro m hm
    obtain ⟨j, hj⟩ := List.mem_iff_getElem?.mp hm
    have hopen : SampleWithin 0 (s.openCall n) j := fun m' hm' => by
      rw [mixbuf_openCall] at hm'
      rw [List.eq_of_mem_replicate (List.mem_of_getElem? hm')]
      exact frameWithin_zero 0
    have hbound := (addsVoices_foldl addsVoices_renderGroup l (s.openCall n)).sample hconfig 0 j hopen m hj
    exact hbound.mono (by omega)
  · have hrendered : Rendered (fun _ => True) (s.openCall n) (l.foldl renderGroup (s.openCall n)) :=
      rendered_foldl (fun s' g => rendered_mono (fun _ _ => trivial) (rendered_renderGroup s' g)) l _
    obtain ⟨-, -, -, -, -, -, -, hacc⟩ := hrendered
    refine hacc fun a ha => ?_
    rw [accbuf_openCall] at ha
    rw [List.eq_of_mem_replicate ha]
    exact goodAccFrame_zero

/-- Settles O57: the bounds after k groups are those of the first k of the list; after all twelve they add up in the
fold. -/
theorem mixBuffersStayInRangeAfterEachGroup : Obligations.MixBuffersStayInRangeAfterEachGroup := by
  unfold Obligations.MixBuffersStayInRangeAfterEachGroup
  intro n s hs
  refine ⟨?groups, ?fold⟩
  case groups =>
    rintro k u hk rfl
    obtain ⟨hmix, hacc⟩ := buffers_foldl_renderGroup hs n ([0, 1, 2, 3, 4, 5, 6, 7, 8, 9, 10, 11].take k)
    rw [List.length_take_of_le hk] at hmix
    exact ⟨fun m hm => forall_mem_channels (hmix m hm), hacc⟩
  case fold =>
    obtain ⟨hmix, hacc⟩ := buffers_foldl_renderGroup hs n allGroups
    intro f hf
    obtain ⟨j, hj⟩ := List.mem_iff_getElem?.mp hf
    obtain ⟨m, a, hm, ha, rfl⟩ := List.getElem?_zipWith_eq_some.mp hj
    exact forall_mem_channels (frameWithin_foldFrame (hmix m (List.mem_of_getElem? hm))
      (hacc a (List.mem_of_getElem? ha)).frameWithin)

end Sys2Proof.Machine
end

section
/-! PROOFS. Decoding and encoding (spec/30_encoding.md): the two are inverse on the data ports, the reads and the
dispatch words, and on the latch and unused ports up to the sub-address that no row reads (R101 to R114). -/

namespace Sys2Proof.Machine

open Sys2Proof

/-! ### The fields of a word -/

/-- The four fields of a word that is joined from them (R101). -/
theorem fields_joinWord (p : Port) (r n : Nibble) (d : Byte) :
    wordPort (joinWord p r n d) = p ∧ wordParam (joinWord p r n d) = r ∧ wordSel (joinWord p r n d) = n ∧
      wordData (joinWord p r n d) = d := by
  have hr := r.isLt
  have hn := n.isLt
  have hd := d.isLt
  refine ⟨?_, ?_, ?_, ?_⟩ <;> apply BitVec.eq_of_toNat_eq <;>
    simp only [wordPort, wordParam, wordSel, wordData, BitVec.extractLsb'_toNat, Laws.joinWord_toNat,
      Nat.shiftRight_eq_div_pow] <;>
    omega

/-- A word is the join of its four fields (R101). -/
theorem joinWord_fields (w : OpWord) : joinWord (wordPort w) (wordParam w) (wordSel w) (wordData w) = w := by
  apply BitVec.eq_of_toNat_eq
  simp only [Laws.joinWord_toNat, wordPort, wordParam, wordSel, wordData, BitVec.extractLsb'_toNat,
    Nat.shiftRight_eq_div_pow]
  omega

theorem joinWord_zero (p : Port) (d : Byte) : joinWord p 0#4 0#4 d = p ++ 0#8 ++ d := by
  have hsub : p ++ 0#4 ++ 0#4 = p ++ 0#8 := by revert p; decide
  rw [joinWord, hsub]

/-- A port has one role, and the role that port (R102). -/
theorem port_portRole : ∀ p : Port, (portRole p).port = p := by decide

theorem portRole_port (role : PortRole) : portRole role.port = role := by
  cases role with
  | fmLatch bank | fmData bank => revert bank; decide
  | pcmLatch | pcmData | timLatch | timData | unusedA | unusedB | unusedE | unusedF => rfl

/-! ### The rows of a role -/

/-- The row of a word with given fields, by the role of its port (R102, R114). -/
def decodeFields (role : PortRole) (r n : Nibble) (d : Byte) : Instr :=
  match role with
  | .fmLatch bank => decodeFmLatch bank d
  | .fmData bank => decodeFm bank r n d
  | .pcmLatch => .portLatchPcm d
  | .pcmData => decodePcm r n d
  | .timLatch => .portLatchTim d
  | .timData => decodeTimer r n d
  | .unusedA => .portUnusedA d
  | .unusedB => .portUnusedB d
  | .unusedE => .portUnusedE d
  | .unusedF => .portUnusedF d

theorem decodeWord_eq (w : OpWord) :
    decodeWord w = decodeFields (portRole (wordPort w)) (wordParam w) (wordSel w) (wordData w) := rfl

theorem decode_joinWord (role : PortRole) (r n : Nibble) (d : Byte) :
    decode (.pw (joinWord role.port r n d)) = decodeFields role r n d := by
  obtain ⟨hport, hparam, hsel, hdata⟩ := fields_joinWord role.port r n d
  rw [decode, decodeWord_eq, hport, hparam, hsel, hdata, portRole_port]

/-- The decoder turns away the selectors that the rows leave out (R106, R108). -/
theorem selectorRejected_eq (n : Nibble) : selectorRejected n = !selectorValid n := by
  revert n
  decide

/-- The number of a sub-address (R101). -/
theorem toNat_subAddress (r n : Nibble) : (r ++ n).toNat = r.toNat * 16 + n.toNat := by
  rw [BitVec.toNat_append, ← Nat.shiftLeft_add_eq_or_of_lt n.isLt, Nat.shiftLeft_eq]

/-- A sub-address is its two nibbles (R101). -/
theorem subAddress_nibbles (sub : Byte) : sub.extractLsb' 4 4 ++ sub.extractLsb' 0 4 = sub := by
  apply BitVec.eq_of_toNat_eq
  rw [toNat_subAddress, BitVec.extractLsb'_toNat, BitVec.extractLsb'_toNat, Nat.shiftRight_eq_div_pow,
    Nat.shiftRight_zero]
  have := sub.isLt
  omega

theorem nibbles_subAddress (r n : Nibble) : (r ++ n).extractLsb' 4 4 = r ∧ (r ++ n).extractLsb' 0 4 = n := by
  have := r.isLt
  have := n.isLt
  constructor <;> apply BitVec.eq_of_toNat_eq <;>
    simp only [BitVec.extractLsb'_toNat, toNat_subAddress, Nat.shiftRight_eq_div_pow] <;>
    omega

/-- The reserved timer sub-addresses, from 0x18 up (R110, R222). -/
theorem decodeTimer_reserved {r n : Nibble} (h : 0x18 ≤ (r ++ n).toNat) (d : Byte) :
    decodeTimer r n d = .timReserved (r ++ n) d := by
  have hr : r.toNat ≠ 0 := by
    have := n.isLt
    rw [toNat_subAddress] at h
    omega
  rw [decodeTimer, if_neg hr]
  split
  case h_9 => rfl
  all_goals omega

/-- The reserved PCM parameters, from 0xA up (R109, R200). -/
theorem decodePcm_reserved {r n : Nibble} (hr : 10 ≤ r.toNat) (hn : selectorValid n = true) (d : Byte) :
    decodePcm r n d = .pcmReserved r n d := by
  rw [decodePcm, selectorRejected_eq, hn, if_neg (by decide)]
  split
  case h_11 => rfl
  all_goals omega

/-- The undocumented reads, from port 3 up (R103, R154). -/
theorem decodeRead_undoc : ∀ port : Port, 3 ≤ port.toNat → decodeRead port = .readUndoc port := by decide

theorem decode_fmWord (bank : BitVec 2) (r n : Nibble) (d : Byte) : decode (fmWord bank r n d) = decodeFm bank r n d :=
  decode_joinWord (.fmData bank) r n d

theorem decode_pcmWord (r n : Nibble) (d : Byte) : decode (pcmWord r n d) = decodePcm r n d :=
  decode_joinWord .pcmData r n d

theorem decode_timWord (r n : Nibble) (d : Byte) : decode (timWord r n d) = decodeTimer r n d :=
  decode_joinWord .timData r n d

/-- Decoding gives back a well-formed instruction: by its row, and on a data port by its selector and parameter. -/
theorem decode_encode {i : Instr} (h : i.wf = true) : decode (encode i) = i := by
  cases i with
  | portLatchFm0 | portLatchFm1 | portLatchFm2 | portLatchFm3 | portLatchPcm | portLatchTim | portUnusedA | portUnusedB
  | portUnusedE | portUnusedF => exact decode_joinWord _ _ _ _
  | fmInvalidSel bank r n d =>
    have hn : selectorValid n = false := by simpa [Instr.wf] using h
    rw [encode, decode_fmWord, decodeFm, selectorRejected_eq, hn]
    rfl
  | fmKey bank n | fmLfofreq bank n | fmLfowave bank n | fmMuldt bank n | fmTl bank n | fmAr bank n | fmD1r bank n
  | fmD2r bank n | fmRrd1l bank n | fmFnslo bank n | fmFnshi bank n | fmWave bank n | fmAlg bank n | fmCh01 bank n
  | fmCh23 bank n | fmReserved bank n =>
    have hn : selectorValid n = true := h
    rw [encode, decode_fmWord, decodeFm, selectorRejected_eq, hn]
    rfl
  | pcmInvalidSel r n d =>
    have hn : selectorValid n = false := by simpa [Instr.wf] using h
    rw [encode, decode_pcmWord, decodePcm, selectorRejected_eq, hn]
    rfl
  | pcmStart0 n | pcmStart1 n | pcmStart2 n | pcmEnd0 n | pcmEnd1 n | pcmEnd2 n | pcmLoop0 n | pcmLoop1 n | pcmLoop2 n
  | pcmFormat n =>
    have hn : selectorValid n = true := h
    rw [encode, decode_pcmWord, decodePcm, selectorRejected_eq, hn]
    rfl
  | pcmReserved r n d =>
    obtain ⟨hr, hn⟩ : 10 ≤ r.toNat ∧ selectorValid n = true := by simpa [Instr.wf] using h
    exact (decode_pcmWord r n d).trans (decodePcm_reserved hr hn d)
  | grpSync | timAHi | timALo | timB | timCtrl | extAddr0 | extAddr1 | extAddr2 | extData => exact decode_timWord _ _ _
  | timReserved sub d =>
    have hsub : 0x18 ≤ (sub.extractLsb' 4 4 ++ sub.extractLsb' 0 4).toNat := by
      simpa [Instr.wf, subAddress_nibbles] using h
    rw [encode, decode_timWord, decodeTimer_reserved hsub, subAddress_nibbles]
  | readStatus0 | readStatus1 | readExtdata => rfl
  | readUndoc port => exact decodeRead_undoc port (by simpa [Instr.wf] using h)
  | hostUpdate | hostReset | hostStart | hostTickA | hostTickB | hostAllocRom | hostWriteRom | hostMute => rfl
  | alg0_0 | alg0_1 | alg0_2 | alg0_3 | alg0_4 | alg0_5 | alg0_6 | alg0_7 | alg0_8 | alg0_9 | alg0_10 | alg0_11
  | alg0_12 | alg0_13 | alg0_14 | alg0_15 => rfl
  | alg1_0 hi | alg1_1 hi | alg1_2 hi | alg1_3 hi | alg2_0 hi | alg2_1 hi | alg2_2 hi | alg2_3 hi | alg2_4 hi
  | alg2_5 hi | alg2_6 hi | alg2_7 hi => revert hi; decide
  | sync3 alg => revert alg; decide

/-! ### The words of the opcode table -/

/-- The bytes of a number spell it when they are enough for it. -/
theorem wordOfBytes_bytesOfWord : ∀ (n w : Nat), w < 256 ^ n → wordOfBytes (bytesOfWord n w) = w
  | 0, w, h => by simp_all [wordOfBytes, bytesOfWord]
  | n + 1, w, h => by
    have hrest : w / 256 < 256 ^ n := Nat.div_lt_of_lt_mul (by rwa [pow_succ'] at h)
    rw [bytesOfWord, wordOfBytes, wordOfBytes_bytesOfWord n _ hrest, BitVec.toNat_ofNat]
    omega

theorem length_bytesOfWord : ∀ n w : Nat, (bytesOfWord n w).length = n
  | 0, _ => rfl
  | n + 1, w => congrArg (· + 1) (length_bytesOfWord n (w / 256))

theorem two_pow_width_le (f : Format) : 2 ^ f.width ≤ 256 ^ f.size := by
  cases f <;> decide

/-- The bytes of a packet's number decode as the packet. -/
theorem decodeBytes_bytesOfWord (f : Format) {w : Nat} (h : w < 2 ^ f.width) :
    decodeBytes f (bytesOfWord f.size w) = .ok (decode (f.packet w)) := by
  have hspell := wordOfBytes_bytesOfWord f.size w (h.trans_le (two_pow_width_le f))
  rw [decodeBytes, if_neg (by simp [length_bytesOfWord]), hspell, if_pos h]

/-- A table word of a format's own width decodes as its packet (R101, R103, R105). -/
theorem decodeTableWord_width {nbits w : Nat} {f : Format} (hf : formatOfBits nbits = some f) (hn : f.width = nbits)
    (h : w < 2 ^ nbits) : decodeTableWord nbits w = some (decode (f.packet w)) := by
  simp only [decodeTableWord, hf, if_pos h, decodeBytes_bytesOfWord f (hn ▸ h)]
  rfl

theorem decodeTableWord_pw (w : OpWord) : decodeTableWord 20 w.toNat = some (decode (.pw w)) := by
  rw [decodeTableWord_width (nbits := 20) (f := .pw) rfl rfl w.isLt, Format.packet, BitVec.ofNat_toNat,
    BitVec.setWidth_eq]

theorem decodeTableWord_pr (p : Port) : decodeTableWord 4 p.toNat = some (decode (.pr p)) := by
  rw [decodeTableWord_width (nbits := 4) (f := .pr) rfl rfl p.isLt, Format.packet, BitVec.ofNat_toNat,
    BitVec.setWidth_eq]

theorem decodeTableWord_al (a : BitVec 6) : decodeTableWord 6 a.toNat = some (decode (.al a)) := by
  rw [decodeTableWord_width (nbits := 6) (f := .al) rfl rfl a.isLt, Format.packet, BitVec.ofNat_toNat,
    BitVec.setWidth_eq]

/-- Settles O1: the decoder inverts the encoder on packets, and a table word decodes as its packet. -/
theorem decodingAnEncodedInstructionGivesItBack : Obligations.DecodingAnEncodedInstructionGivesItBack := by
  unfold Obligations.DecodingAnEncodedInstructionGivesItBack
  intro i h
  have hback := decode_encode h
  refine ⟨hback, fun w hw => ?_, fun a ha => ?_, fun p hp => ?_⟩
  · rw [decodeTableWord_pw, ← hw, hback]
  · rw [decodeTableWord_al, ← ha, hback]
  · rw [decodeTableWord_pr, ← hp, hback]

/-- Settles O3: seven closed words, each decoded by evaluation. -/
theorem wordsOfTheTableDecodeToTheirRows : Obligations.WordsOfTheTableDecodeToTheirRows := by
  unfold Obligations.WordsOfTheTableDecodeToTheirRows
  decide

/-! ### Encoding a decoded packet -/

theorem wf_decodeFm (bank : BitVec 2) (r n : Nibble) (d : Byte) : (decodeFm bank r n d).wf = true := by
  rw [decodeFm, selectorRejected_eq]
  cases hn : selectorValid n with
  | false => simp [Instr.wf, hn]
  | true =>
    simp only [Bool.not_true, Bool.false_eq_true, if_false]
    split <;> exact hn

theorem wf_decodePcm (r n : Nibble) (d : Byte) : (decodePcm r n d).wf = true := by
  rw [decodePcm, selectorRejected_eq]
  cases hn : selectorValid n with
  | false => simp [Instr.wf, hn]
  | true =>
    simp only [Bool.not_true, Bool.false_eq_true, if_false]
    split
    case h_11 =>
      have hr : 10 ≤ r.toNat := by simp only [imp_false] at *; omega
      simp [Instr.wf, hn, hr]
    all_goals exact hn

theorem wf_decodeTimer (r n : Nibble) (d : Byte) : (decodeTimer r n d).wf = true := by
  rw [decodeTimer]
  split
  · rfl
  · split
    case h_9 =>
      have hsub : 0x18 ≤ (r ++ n).toNat := by
        simp only [toNat_subAddress, imp_false] at *
        omega
      simpa [Instr.wf] using hsub
    all_goals rfl

theorem wf_decodeFields (role : PortRole) (r n : Nibble) (d : Byte) : (decodeFields role r n d).wf = true := by
  cases role with
  | fmLatch bank => rw [decodeFields, decodeFmLatch]; split <;> rfl
  | fmData bank => exact wf_decodeFm bank r n d
  | pcmData => exact wf_decodePcm r n d
  | timData => exact wf_decodeTimer r n d
  | pcmLatch | timLatch | unusedA | unusedB | unusedE | unusedF => rfl

theorem wf_decode (p : Packet) : (decode p).wf = true := by
  cases p with
  | pw w => exact wf_decodeFields _ _ _ _
  | pr port => revert port; decide
  | al a => revert a; decide
  | ho c => cases c <;> rfl

theorem encode_decodeFm (bank : BitVec 2) (r n : Nibble) (d : Byte) :
    encode (decodeFm bank r n d) = fmWord bank r n d := by
  rw [decodeFm]
  split
  · rfl
  · obtain ⟨r⟩ := r
    fin_cases r <;> rfl

theorem encode_decodePcm (r n : Nibble) (d : Byte) : encode (decodePcm r n d) = pcmWord r n d := by
  rw [decodePcm]
  split
  · rfl
  · obtain ⟨r⟩ := r
    fin_cases r <;> rfl

/-- The group writes have the parameter 0, the other named writes of the port the parameter 1 (R110). -/
theorem encode_decodeTimer (r n : Nibble) (d : Byte) : encode (decodeTimer r n d) = timWord r n d := by
  by_cases hsub : 0x18 ≤ (r ++ n).toNat
  · obtain ⟨hr, hn⟩ := nibbles_subAddress r n
    rw [decodeTimer_reserved hsub, encode, hr, hn]
  · have hr : r = 0#4 ∨ r = 1#4 := by
      rw [toNat_subAddress] at hsub
      have : r.toNat = 0 ∨ r.toNat = 1 := by omega
      exact this.imp BitVec.eq_of_toNat_eq BitVec.eq_of_toNat_eq
    obtain rfl | rfl := hr
    · rfl
    · obtain ⟨n⟩ := n
      fin_cases n <;> rfl

/-- A data port, whose rows read the sub-address (R102). -/
def readsSub : PortRole → Bool
  | .fmData _ => true
  | .pcmData => true
  | .timData => true
  | _ => false

theorem readsSub_portRole : ∀ p : Port,
    readsSub (portRole p) = true ↔ p ∈ [0x1#4, 0x3#4, 0x5#4, 0x7#4, 0x9#4, 0xD#4] := by decide

theorem encode_decodeFields (role : PortRole) (r n : Nibble) (d : Byte) :
    encode (decodeFields role r n d) = if readsSub role then .pw (joinWord role.port r n d) else latchWord role d := by
  cases role with
  | fmLatch bank => obtain ⟨bank⟩ := bank; fin_cases bank <;> rfl
  | fmData bank => exact encode_decodeFm bank r n d
  | pcmData => exact encode_decodePcm r n d
  | timData => exact encode_decodeTimer r n d
  | pcmLatch | timLatch | unusedA | unusedB | unusedE | unusedF => rfl

theorem encode_decode_pw (w : OpWord) :
    encode (decode (.pw w)) =
      if wordPort w ∈ [0x1#4, 0x3#4, 0x5#4, 0x7#4, 0x9#4, 0xD#4] then .pw w
      else .pw (wordPort w ++ 0#8 ++ wordData w) := by
  rw [decode, decodeWord_eq, encode_decodeFields, latchWord, port_portRole, joinWord_fields, joinWord_zero]
  simp only [readsSub_portRole]

/-- Settles O2: the decoder's terms are those of their rows, and each row's encoding joins the fields it reads; the
reads and the dispatch words are few enough to enumerate. -/
theorem encodingADecodedWordGivesTheWord : Obligations.EncodingADecodedWordGivesTheWord := by
  unfold Obligations.EncodingADecodedWordGivesTheWord
  refine ⟨wf_decode, fun w hw => ?_, fun w hw => ?_, by decide, by decide, fun c => ?_⟩
  · rw [encode_decode_pw, if_pos hw]
  · rw [encode_decode_pw, if_neg hw]
  · cases c <;> rfl

end Sys2Proof.Machine
end

section
/-! PROOFS. The host operations (spec/49_update_engine.md R462 to R464; spec/60_exceptions.md R500 to R505;
spec/70_reset_and_hazards.md R540 to R542): the PCM memory, the mute flags, the timer ticks, `reset` and `start`. -/

namespace Sys2Proof.Machine

open Sys2Proof Host

/-! ### The PCM memory -/

/-- A read at an address below 2^23, where the address is not reduced (R83). -/
theorem memRead_natCast (m : Rom) {a : Nat} (h : a < 8388608) :
    memRead m a = if a < m.size then m.byteAt a else 0#8 := by
  have haddr : ((a : Int) % 8388608).toNat = a := by omega
  simp only [memRead, haddr]

/-- Settles O24: every byte of the new memory is read from the cells that are below both sizes, or is the fill byte. -/
theorem allocRomKeepsTheCommonBytes : Obligations.AllocRomKeepsTheCommonBytes := by
  unfold Obligations.AllocRomKeepsTheCommonBytes
  intro size s
  refine ⟨_, rfl, rfl, size_alloc s.rom size, fun a ha => ?_⟩
  rw [memRead_natCast _ ha, memRead_natCast _ ha, byteAt_alloc]
  have hsize : (s.rom.alloc size).size = min size romLimit := size_alloc s.rom size
  by_cases hnew : a < (s.rom.alloc size).size
  · have hcommon : a < min s.rom.size (min size romLimit) ↔ a < s.rom.size := by omega
    simp only [if_pos hnew, hcommon]
    split <;> rfl
  · simp only [if_neg hnew]

/-- Settles O25: on a memory in canonical form a read gives back the byte written last at its address. -/
theorem writeRomStoresItsBytes : Obligations.WriteRomStoresItsBytes := by
  unfold Obligations.WriteRomStoresItsBytes
  intro offset bytes s
  refine ⟨_, rfl, rfl, size_writeBytes s.rom offset bytes, fun hwf a ha => ?_⟩
  rw [memRead_natCast _ ha, memRead_natCast _ ha, size_writeBytes, byteAt_writeBytes hwf]
  by_cases hsize : a < s.rom.size
  · rw [if_pos hsize, if_pos hsize]
  · rw [if_neg hsize, if_neg hsize, if_neg fun h => hsize h.2.2]

/-! ### The mute flags -/

/-- Settles O23: the mask is one change over all groups. -/
theorem muteSetsTheTwelveFlags : Obligations.MuteSetsTheTwelveFlags := by
  unfold Obligations.MuteSetsTheTwelveFlags
  intro mask s
  exact ⟨_, rfl, mapGroups_frame s _, group_mapGroups s _⟩

/-! ### The timer ticks -/

/-- The event of a note of the IRQ level, in terms of the level after it (R505). -/
theorem events_noteIrq (s : State) (b : Bool) :
    (s.noteIrq b).events =
      if (s.noteIrq b).irq = b then s.events else s.events ++ [Event.irqChanged (s.noteIrq b).irq] := by
  have hirq : (s.noteIrq b).irq = s.irq := by rw [State.irq, irqstate_noteIrq, State.irq]
  rw [hirq, noteIrq_events]

/-- Settles O21: both rows are a tick of their timer. -/
theorem timerTicksSetTheirFlags : Obligations.TimerTicksSetTheirFlags := by
  unfold Obligations.TimerTicksSetTheirFlags
  intro s k i hi
  have hexec : exec i s = .next (s.timerTick k) := by obtain ⟨rfl, rfl⟩ | ⟨rfl, rfl⟩ := hi <;> rfl
  obtain ⟨frame, status, irqstate⟩ := timerTick_spec s k
  exact ⟨_, hexec, frame, status, irqstate, events_noteIrq _ s.irq⟩

/-! ### `reset` -/

/-- A state that differs in its groups only is the old one with the new groups. -/
theorem eq_withGroups {s t : State} (h : { t with groups := s.groups } = s) : t = { s with groups := t.groups } :=
  congrArg (fun u : State => { u with groups := t.groups }) h

/-- A change over all groups, as a new vector of groups. -/
theorem mapGroups_eq (s : State) (f : GroupIx → Group → Group) :
    s.mapGroups f = { s with groups := Vector.ofFn fun g => f g (s.group g) } := by
  have hgroups : (s.mapGroups f).groups = Vector.ofFn fun g => f g (s.group g) := by
    apply groups_ext (t := { s with groups := Vector.ofFn fun g => f g (s.group g) })
    intro g
    rw [group_mapGroups]
    simp [State.group]
  rw [← hgroups]
  exact eq_withGroups (mapGroups_frame s f)

/-- The items of the reset table, as one update of the state (R540). -/
theorem resetItems_eq (s : State) :
    s.resetItems =
      { s with
        slots := Vector.replicate 48 Slot.reset
        groups := Vector.ofFn fun g => ⟨0#2, false, (s.group g).muted⟩
        regs := Vector.replicate 16 0#8
        timerA := 0#10
        timerB := 0#8
        timerAPeriod := 393216
        timerBPeriod := 1572864
        enable := 0#8
        status := 0#2
        irqstate := 0#2
        endStatus := 0#16
        busyFlag := false
        extAddress := 0#23
        extRw := false
        extReadlatch := 0#8 } := by
  rw [State.resetItems, mapGroups_eq]
  rfl

/-- A `reset` adds an event when it releases an asserted IRQ (R505, R540). -/
theorem reset_eq (s : State) (b : Bool) :
    s.resetItems.noteIrq b =
      { s.resetItems with events := if b then s.events ++ [.irqChanged false] else s.events } := by
  rw [noteIrq_events, resetItems_eq]
  cases b <;> rfl

theorem group_reset (s : State) (b : Bool) (g : GroupIx) :
    (s.resetItems.noteIrq b).group g = ⟨0#2, false, (s.group g).muted⟩ := by
  rw [reset_eq, resetItems_eq]
  simp [State.group]

theorem reg_reset (s : State) (b : Bool) (p : Port) : (s.resetItems.noteIrq b).reg p = 0#8 := by
  rw [reset_eq, resetItems_eq]
  simp [State.reg]

/-- Settles O26: the items of the table are one update, and the note of the IRQ level adds the event. -/
theorem resetSetsEveryItemOfItsTable : Obligations.ResetSetsEveryItemOfItsTable := by
  unfold Obligations.ResetSetsEveryItemOfItsTable
  intro s
  have hexec : exec .hostReset s = .next (s.resetItems.noteIrq s.irq) := rfl
  refine ⟨_, hexec, ?frame, slot_reset s s.irq, group_reset s s.irq, reg_reset s s.irq, ?items⟩
  case frame => rw [reset_eq, resetItems_eq]
  case items =>
    rw [reset_eq, resetItems_eq]
    exact ⟨rfl, rfl, rfl, rfl, rfl, rfl, rfl, rfl, rfl, rfl, rfl, rfl, rfl, rfl⟩

/-! ### `start` -/

/-- What `start` resets, with the groups as a new vector (R541). -/
theorem atStart_eq (s : State) (clock : PosFrac) :
    s.atStart clock =
      { s with
        config := { s.config with clock := clock }
        rom := Rom.empty
        mixbuf := []
        accbuf := []
        pos := RenderPos.idle
        groups := Vector.ofFn fun g => { s.group g with muted := false } } := by
  rw [State.atStart, mapGroups_eq]
  rfl

theorem muted_atStart (s : State) (clock : PosFrac) (g : GroupIx) : ((s.atStart clock).group g).muted = false := by
  rw [State.atStart, group_mapGroups]

theorem exec_hostStart (s : State) (clock : PosFrac) (h : s.config.startAllocOk = true) :
    exec (.hostStart clock) s = .next ((s.atStart clock).resetItems.noteIrq s.irq) := if_pos h

/-- Settles O27: `start` sets up the machine, and the reset that ends it is the one of the table. -/
theorem startEstablishesAnInstance : Obligations.StartEstablishesAnInstance := by
  unfold Obligations.StartEstablishesAnInstance
  intro c s h
  obtain ⟨hrom, -, hconfig⟩ := atStart_spec s c
  refine ⟨_, exec_hostStart s c h, (config_reset _ _).trans hconfig, (rom_reset _ _).trans hrom, fun g => ?group,
    slot_reset _ _, reg_reset _ _, ?items⟩
  case group => rw [group_reset, muted_atStart]
  case items =>
    rw [reset_eq, resetItems_eq, atStart_eq]
    exact ⟨rfl, rfl, rfl, rfl, rfl, rfl, rfl, rfl, rfl, rfl, rfl, rfl, rfl, rfl, rfl, rfl, rfl⟩

/-! ### Every instruction completes -/

/-- Settles O5: every arm but that of `start` answers a next state. -/
theorem onlyAFailedStartStops : Obligations.OnlyAFailedStartStops := by
  unfold Obligations.OnlyAFailedStartStops
  refine ⟨fun i s halloc => ?_, fun c s hfailed => ?_⟩
  · cases i with
    | hostStart c => exact ⟨_, exec_hostStart s c (halloc c rfl)⟩
    | _ => exact ⟨_, rfl⟩
  · exact if_neg (by simp [hfailed])

/-! ### The state after `reset` -/

theorem slot_stateReset (i : SlotIx) : State.reset.slot i = Slot.reset := by
  simp [State.slot, State.reset]

theorem goodSlot_reset : GoodSlot Slot.reset := by
  unfold GoodSlot
  decide

/-- Settles O59: the memory is empty, the tables are the default ones, every slot is the reset slot, and the timers, the
flags and the buffers are at their values of the table. -/
theorem resetStateIsGood : Obligations.ResetStateIsGood := by
  unfold Obligations.ResetStateIsGood
  refine ⟨wf_reset, goodConfig_default, fun i => ?slots, fun i _ => ?pcm, rfl, rfl, rfl, fun k _ => ?marks,
    fun f hf => ?acc⟩
  case slots => rw [slot_stateReset]; exact goodSlot_reset
  case pcm => rw [slot_stateReset]; exact samePcmFields_refl _
  case marks => exact BitVec.getLsbD_zero
  case acc => cases hf

end Sys2Proof.Machine
end

section
/-! PROOFS. The pending bits and the output events of every instruction (spec/60_exceptions.md R504, R505): an
instruction leaves both alone, or adds an external write, or ends with the note of the IRQ level. -/

namespace Sys2Proof.Machine

open Sys2Proof Host

/-! ### What leaves the pending bits and the events alone -/

/-- Neither a pending bit nor an event changes. -/
structure Quiet (s t : State) : Prop where
  irqstate : t.irqstate = s.irqstate
  events : t.events = s.events

section Quiet

variable {s t u : State}

theorem quiet_refl (s : State) : Quiet s s := ⟨rfl, rfl⟩

theorem Quiet.trans (h : Quiet s t) (h' : Quiet t u) : Quiet s u :=
  ⟨h'.irqstate.trans h.irqstate, h'.events.trans h.events⟩

theorem quiet_putKey (d : Byte) (i : SlotIx) (s : State) : Quiet s (putKey d i s) := by
  unfold putKey
  split
  · exact ⟨by simp [modSlot_eq], by simp [modSlot_eq]⟩
  · exact ⟨rfl, rfl⟩

theorem quiet_writeTargets {w : SlotIx → State → State} (hw : ∀ i s, Quiet s (w i s)) (g : GroupIx) :
    ∀ (banks : List Bank) (s : State), Quiet s (writeTargets w g banks s)
  | [], s => quiet_refl s
  | b :: banks, s => (hw (slotIx b g) s).trans (quiet_writeTargets hw g banks _)

theorem quiet_fmWrite {w : SlotIx → State → State} (hw : ∀ i s, Quiet s (w i s)) (sync : Bool) (bank : BitVec 2)
    (n : Nibble) (d : Byte) (s : State) : Quiet s (fmWrite sync bank n d w s) := by
  have hstore : Quiet s (s.setReg (PortRole.fmData bank).port d) := ⟨rfl, rfl⟩
  rw [fmWrite]
  cases fmTab n with
  | none => exact hstore
  | some g => exact hstore.trans (quiet_writeTargets hw g _ _)

theorem quiet_fmWrite_put (sync : Bool) (bank : BitVec 2) (n : Nibble) (d : Byte) (f : Slot → Slot) (s : State) :
    Quiet s (fmWrite sync bank n d (fun i s1 => s1.modSlot i f) s) :=
  quiet_fmWrite (w := fun i s1 => s1.modSlot i f) (fun _ _ => ⟨rfl, rfl⟩) sync bank n d s

theorem quiet_pcmWrite (n : Nibble) (d : Byte) (f : Slot → Slot) (s : State) : Quiet s (pcmWrite n d f s) := by
  rw [pcmWrite]
  cases pcmTab n <;> exact ⟨rfl, rfl⟩

theorem Rendered.quiet {r : SlotIx → Prop} (h : Rendered r s t) : Quiet s t :=
  ⟨by simpa only using congrArg State.irqstate h.1, by simpa only using congrArg State.events h.1⟩

theorem quiet_closeCall (s : State) : Quiet s s.closeCall := ⟨rfl, rfl⟩

theorem quiet_update (s : State) (n : Nat) : Quiet s (s.update n) := by
  have hopen : Quiet s (s.openCall n) := ⟨rfl, rfl⟩
  exact (hopen.trans (rendered_renderAll _).quiet).trans (quiet_closeCall _)

theorem quiet_grpSync {sel : Nibble} {d : Byte} (h : execGrpSync sel d s = .next t) : Quiet s t := by
  obtain rfl := Outcome.next.inj h
  split <;> exact ⟨rfl, rfl⟩

/-! ### What an instruction reports -/

/-- The instructions that may change a pending bit (R504). -/
def ChangesPending (i : Instr) : Prop :=
  i = .hostTickA ∨ i = .hostTickB ∨ (∃ d, i = .timCtrl d) ∨ i = .hostReset ∨ ∃ c, i = .hostStart c

/-- The pending bits change by the instructions of R504 only, and the events are those before, at most one external
write, and last a change of the IRQ level (R505). -/
def ReportsIrq (i : Instr) (s t : State) : Prop :=
  (t.irqstate ≠ s.irqstate → ChangesPending i) ∧
    ∃ w : List (Addr × Byte), w.length ≤ 1 ∧
      t.events = s.events ++ w.map (fun x => Event.extWrite x.1 x.2) ++
        if t.irq = s.irq then [] else [Event.irqChanged t.irq]

theorem irq_congr (h : t.irqstate = s.irqstate) : t.irq = s.irq := by
  rw [State.irq, State.irq, h]

/-- An instruction that adds external writes at most leaves the level alone. -/
theorem reportsIrq_of_writes {i : Instr} (w : List (Addr × Byte)) (hw : w.length ≤ 1) (hirq : t.irqstate = s.irqstate)
    (hevents : t.events = s.events ++ w.map fun x => .extWrite x.1 x.2) : ReportsIrq i s t := by
  refine ⟨fun hne => absurd hirq hne, w, hw, ?_⟩
  rw [if_pos (irq_congr hirq), List.append_nil, hevents]

theorem Quiet.reportsIrq {i : Instr} (h : Quiet s t) : ReportsIrq i s t :=
  reportsIrq_of_writes [] (Nat.zero_le 1) h.irqstate (by rw [h.events, List.map_nil, List.append_nil])

/-- An instruction that ends with the note of the IRQ level reports its change. -/
theorem reportsIrq_noteIrq {i : Instr} (hi : ChangesPending i) (h : u.events = s.events) :
    ReportsIrq i s (u.noteIrq s.irq) := by
  refine ⟨fun _ => hi, [], Nat.zero_le 1, ?_⟩
  rw [events_noteIrq, h, List.map_nil, List.append_nil]
  split
  · exact (List.append_nil _).symm
  · rfl

theorem reportsIrq_extData {d : Byte} (h : execExtData d s = .next t) : ReportsIrq (.extData d) s t := by
  obtain rfl := Outcome.next.inj h
  split
  · exact Quiet.reportsIrq ⟨rfl, rfl⟩
  · exact reportsIrq_of_writes [(s.extAddress, d)] le_rfl rfl rfl

theorem reportsIrq_timCtrl {d : Byte} (h : execTimCtrl d s = .next t) : ReportsIrq (.timCtrl d) s t := by
  obtain rfl := Outcome.next.inj h
  exact reportsIrq_noteIrq (.inr (.inr (.inl ⟨d, rfl⟩))) (by simp [storeTimer])

theorem events_resetItems (s : State) : s.resetItems.events = s.events := by
  rw [resetItems_eq]

theorem reportsIrq_hostStart {clock : PosFrac} (h : execHostStart clock s = .next t) :
    ReportsIrq (.hostStart clock) s t := by
  unfold execHostStart at h
  split at h
  · obtain rfl := Outcome.next.inj h
    have hevents : (s.atStart clock).resetItems.events = s.events := by rw [events_resetItems, atStart_eq]
    exact reportsIrq_noteIrq (.inr (.inr (.inr (.inr ⟨clock, rfl⟩)))) hevents
  · cases h

end Quiet

/-! ### The instruction set -/

/-- A quiet meaning reports as it should. -/
theorem reportsIrq_of_quiet {i : Instr} {s t u : State} (h : (.next u : Answer) = .next t) (hu : Quiet s u) :
    ReportsIrq i s t :=
  Outcome.next.inj h ▸ hu.reportsIrq

/-- Every instruction that runs reports as it should: the case analysis over the instruction set. -/
theorem reportsIrq_of_exec {i : Instr} {s t : State} (h : exec i s = .next t) : ReportsIrq i s t := by
  cases i with
  | portLatchFm0 | portLatchFm1 | portLatchFm2 | portLatchFm3 | portLatchPcm | portLatchTim | portUnusedA | portUnusedB
  | portUnusedE | portUnusedF | fmInvalidSel | pcmInvalidSel | timReserved | timAHi | timALo | timB | extAddr0
  | extAddr1 | extAddr2 | readStatus0 | readStatus1 | readExtdata | readUndoc | hostAllocRom | hostWriteRom =>
    exact reportsIrq_of_quiet h ⟨rfl, rfl⟩
  | fmKey _ _ d => exact reportsIrq_of_quiet h (quiet_fmWrite (quiet_putKey d) _ _ _ _ s)
  | fmLfofreq | fmLfowave | fmMuldt | fmTl | fmAr | fmD1r | fmD2r | fmRrd1l | fmFnslo | fmFnshi | fmWave | fmAlg
  | fmCh01 | fmCh23 => exact reportsIrq_of_quiet h (quiet_fmWrite_put _ _ _ _ _ s)
  | fmReserved => exact reportsIrq_of_quiet h (quiet_fmWrite (fun _ s' => quiet_refl s') _ _ _ _ s)
  | pcmStart0 | pcmStart1 | pcmStart2 | pcmEnd0 | pcmEnd1 | pcmEnd2 | pcmLoop0 | pcmLoop1 | pcmLoop2 | pcmFormat
  | pcmReserved => exact reportsIrq_of_quiet h (quiet_pcmWrite _ _ _ s)
  | grpSync => exact (quiet_grpSync h).reportsIrq
  | timCtrl => exact reportsIrq_timCtrl h
  | extData => exact reportsIrq_extData h
  | hostTickA => exact Outcome.next.inj h ▸ reportsIrq_noteIrq (.inl rfl) rfl
  | hostTickB => exact Outcome.next.inj h ▸ reportsIrq_noteIrq (.inr (.inl rfl)) rfl
  | hostReset =>
    exact Outcome.next.inj h ▸ reportsIrq_noteIrq (.inr (.inr (.inr (.inl rfl)))) (events_resetItems s)
  | hostStart => exact reportsIrq_hostStart h
  | hostMute => exact reportsIrq_of_quiet h (by rw [mapGroups_eq]; exact ⟨rfl, rfl⟩)
  | hostUpdate n => exact reportsIrq_of_quiet h (quiet_update s n)
  | alg0_0 | alg0_1 | alg0_2 | alg0_3 | alg0_4 | alg0_5 | alg0_6 | alg0_7 | alg0_8 | alg0_9 | alg0_10 | alg0_11
  | alg0_12 | alg0_13 | alg0_14 | alg0_15 | alg1_0 | alg1_1 | alg1_2 | alg1_3 | alg2_0 | alg2_1 | alg2_2
  | alg2_3 | alg2_4 | alg2_5 | alg2_6 | alg2_7 =>
    exact reportsIrq_of_quiet h (rendered_renderNetwork _ _ s).quiet
  | sync3 => exact reportsIrq_of_quiet h (rendered_renderVoices s).quiet

/-- Settles O22: it is what every instruction reports. -/
theorem irqChangesOnlyByTimersAndIsReported : Obligations.IrqChangesOnlyByTimersAndIsReported := by
  unfold Obligations.IrqChangesOnlyByTimersAndIsReported
  exact fun _ _ _ => reportsIrq_of_exec

end Sys2Proof.Machine
end

section
/-! PROOFS. A whole call of `update` (spec/49_update_engine.md section 1): what it returns and keeps (R450, R455), the
slots that do not move (R451, R453), the silence after a reset (R542, R544), and the row of sync 3 (R380). -/

namespace Sys2Proof.Machine

open Sys2Proof Host

/-! ### What a call returns and keeps -/

theorem closeCall_rendered {n : Nat} {s u : State} (h : Rendered (fun _ => True) (s.openCall n) u) :
    { u.closeCall with
      slots := s.slots, endStatus := s.endStatus, mixbuf := s.mixbuf, accbuf := s.accbuf, pos := s.pos
      result := s.result } = s :=
  congrArg (fun v : State => { v with mixbuf := s.mixbuf, accbuf := s.accbuf, pos := s.pos, result := s.result }) h.1

/-- Settles O29: rendering keeps the registers and the lengths of the buffers, and the end of the call folds them into
the two arrays. -/
theorem updateReturnsArraysAndKeepsTheRegisters : Obligations.UpdateReturnsArraysAndKeepsTheRegisters := by
  unfold Obligations.UpdateReturnsArraysAndKeepsTheRegisters
  intro n s
  have hrendered := rendered_renderAll (s.openCall n)
  have hexec : exec (.hostUpdate n) s = .next (renderAll (s.openCall n)).closeCall := rfl
  obtain ⟨hmix, hacc⟩ := length_renderAll_openCall s n
  generalize renderAll (s.openCall n) = u at hrendered hexec hmix hacc
  have hframe := closeCall_rendered hrendered
  obtain ⟨-, -, -, hkept, -, hmarks, -⟩ := hrendered
  exact ⟨_, _, _, hexec, result_closeCall u, by simp [hmix, hacc], by simp [hmix, hacc], rfl, rfl, hframe,
    fun i => (hkept i).1, hmarks⟩

/-! ### Slots that do not move -/

/-- In sync 0 the unit of a group is the network of its leader's algorithm (R105, R330). -/
theorem renderUnit_syncZero {s : State} {g : GroupIx} (h : (s.group g).sync = 0#2) :
    renderUnit (s.at g .a) = renderNetwork (routing0 (s.slot (s.at g .a).leader).algorithm) .a (s.at g .a) := by
  have hword : (s.at g .a).dispatchWord = 0#2 ++ (s.slot (s.at g .a).leader).algorithm :=
    congrArg (· ++ (s.slot (s.at g .a).leader).algorithm) h
  rw [renderUnit, hword]
  generalize (s.slot (s.at g .a).leader).algorithm = alg
  have hsync : (0#2 ++ alg).extractLsb' 4 2 = 0#2 := BitVec.extractLsb'_append_eq_left
  have halg : (0#2 ++ alg).extractLsb' 0 4 = alg := BitVec.extractLsb'_append_eq_right
  rw [renderSelected, hsync, halg]
  rfl

/-- A group that sync 0 gates by an inactive leader renders nothing (R451). -/
theorem renderGroup_gated {s : State} {g : GroupIx} (hsync : (s.group g).sync = 0#2)
    (hoff : (s.slot (slotIx 0 g)).active = false) (i : SlotIx) : (renderGroup s g).slot i = s.slot i := by
  have hsilent : renderUnit (s.at g .a) = s.at g .a := by
    rw [renderUnit_syncZero hsync]
    exact renderGated_inactive _ _ _ hoff
  rw [renderGroup, hsync]
  split
  · rfl
  · exact congrArg (·.slot i) hsilent

/-- A slot of a muted or gated group keeps its state while the group renders (R451, R453). -/
theorem renderGroup_still {s : State} {g : GroupIx}
    (h : (s.group g).muted = true ∨ ((s.group g).sync = 0#2 ∧ (s.slot (slotIx 0 g)).active = false)) (i : SlotIx) :
    (renderGroup s g).slot i = s.slot i := by
  obtain hmuted | ⟨hsync, hoff⟩ := h
  · rw [renderGroup_muted s g hmuted]
  · exact renderGroup_gated hsync hoff i

theorem slot_closeCall (s : State) (i : SlotIx) : s.closeCall.slot i = s.slot i := rfl

/-- Settles O32: the groups before and after leave the slots of the group alone, and the group itself renders
nothing. -/
theorem mutedAndGatedSlotsDoNotMove : Obligations.MutedAndGatedSlotsDoNotMove := by
  unfold Obligations.MutedAndGatedSlotsDoNotMove
  intro n s t g hexec hstill i hi
  have ht : (renderAll (s.openCall n)).closeCall = t := Outcome.next.inj hexec
  obtain ⟨before, after, hsplit⟩ := List.append_of_mem (mem_allGroups g)
  obtain ⟨-, hnodup, hbefore⟩ := List.nodup_append.mp (hsplit ▸ nodup_allGroups)
  have hafter : g ∉ after := (List.nodup_cons.mp hnodup).1
  have hbefore : g ∉ before := fun h => hbefore g h g (List.mem_cons_self ..) rfl
  have hgroup := (rendered_foldl (r := fun _ => True) (f := renderGroup)
    (fun s' g' => rendered_mono (fun _ _ => trivial) (rendered_renderGroup s' g')) before (s.openCall n)).group g
  have hslot := foldl_renderGroup_slot g before (s.openCall n) hbefore
  have hleader := hslot _ (inGroup_slotIx 0 g)
  calc t.slot i
      = (after.foldl renderGroup (renderGroup (before.foldl renderGroup (s.openCall n)) g)).slot i := by
        rw [← ht, slot_closeCall, renderAll, hsplit, List.foldl_append, List.foldl_cons]
    _ = (renderGroup (before.foldl renderGroup (s.openCall n)) g).slot i := foldl_renderGroup_slot g after _ hafter i hi
    _ = (before.foldl renderGroup (s.openCall n)).slot i :=
        renderGroup_still (by rw [hgroup, hleader]; exact hstill) i
    _ = s.slot i := hslot i hi

/-! ### Silence -/

/-- With no slot active the unit of any dispatch word renders nothing: each of its gates is 0 (R451). -/
theorem renderSelected_inactive {s : State} (h : ∀ i : SlotIx, (s.slot i).active = false) (a : BitVec 6) :
    renderSelected a s = s := by
  have hnetwork (r : Routing) (p : Pair) : renderNetwork r p s = s := renderGated_inactive _ _ _ (h _)
  have hvoice (b : Bank) : renderVoice b s = s := renderGated_inactive _ _ _ (h _)
  unfold renderSelected
  dsimp only
  split
  · exact hnetwork _ _
  · exact hnetwork _ _
  · exact hnetwork _ _
  · rw [renderVoices, hvoice, hvoice, hvoice, hvoice]

/-- With no slot active a group moves the position at most. -/
theorem renderGroup_inactive {s : State} (h : ∀ i : SlotIx, (s.slot i).active = false) (g : GroupIx) :
    ∃ p, renderGroup s g = { s with pos := p } := by
  have hunit (p : Pair) : renderUnit (s.at g p) = s.at g p := renderSelected_inactive (s := s.at g p) h _
  have hvoice : renderVoice 3 (s.at g .a) = s.at g .a := renderGated_inactive _ _ _ (h _)
  unfold renderGroup
  split
  · exact ⟨s.pos, rfl⟩
  · split
    · rw [hunit]
      exact ⟨⟨g, .b⟩, hunit .b⟩
    · rw [hunit, hvoice]
      exact ⟨⟨g, .a⟩, rfl⟩
    · exact ⟨⟨g, .a⟩, hunit .a⟩

theorem foldl_renderGroup_inactive : ∀ (l : List GroupIx) {s : State}, (∀ i : SlotIx, (s.slot i).active = false) →
    ∃ p, l.foldl renderGroup s = { s with pos := p }
  | [], s, _ => ⟨s.pos, rfl⟩
  | g :: l, s, h => by
    obtain ⟨p, hp⟩ := renderGroup_inactive h g
    rw [List.foldl_cons, hp]
    exact foldl_renderGroup_inactive l (s := { s with pos := p }) h

/-- A call that leaves its buffers as they were opened returns zeros (R435, R436, R450). -/
theorem result_closeCall_zero {n : Nat} {u : State} (hmix : u.mixbuf = List.replicate n Frame.zero)
    (hacc : u.accbuf = List.replicate n Frame.zero) :
    u.closeCall.result = .samples (List.replicate n 0#32) (List.replicate n 0#32) := by
  have hfold : foldFrame Frame.zero Frame.zero = Frame.zero := rfl
  have hleft : Frame.zero.left = 0#32 := rfl
  have hright : Frame.zero.right = 0#32 := rfl
  simp only [State.closeCall, hmix, hacc, List.zipWith_replicate', List.map_replicate, hfold, hleft, hright]

/-- A second `reset` finds every item at its value and no asserted IRQ (R542). -/
theorem reset_reset (s : State) (b : Bool) :
    ((s.resetItems.noteIrq b).resetItems).noteIrq (s.resetItems.noteIrq b).irq = s.resetItems.noteIrq b := by
  have hirq : (s.resetItems.noteIrq b).irq = false := by
    rw [reset_eq, resetItems_eq]
    rfl
  rw [hirq, reset_eq (s.resetItems.noteIrq b), resetItems_eq (s.resetItems.noteIrq b)]
  simp only [group_reset]
  rw [reset_eq, resetItems_eq]
  rfl

/-- Settles O31: a second reset meets its own values, and with every gate 0 a call returns its buffers as it opened
them. -/
theorem resetIsIdempotentAndInactiveSlotsAreSilent : Obligations.ResetIsIdempotentAndInactiveSlotsAreSilent := by
  unfold Obligations.ResetIsIdempotentAndInactiveSlotsAreSilent
  refine ⟨fun s t hexec => ?reset, fun n s hoff => ?silent⟩
  case reset =>
    obtain rfl := Outcome.next.inj hexec
    exact ⟨congrArg Outcome.next (reset_reset s s.irq), fun i => by rw [slot_reset]; rfl⟩
  case silent =>
    obtain ⟨p, hp⟩ := foldl_renderGroup_inactive allGroups (s := s.openCall n) hoff
    have hexec : exec (.hostUpdate n) s = .next ({ s.openCall n with pos := p } : State).closeCall :=
      congrArg (fun u : State => Outcome.next u.closeCall) hp
    exact ⟨_, hexec, result_closeCall_zero rfl rfl, rfl⟩

/-! ### The row of sync 3 -/

/-- Voices one after the other, in the words of the claims: none of them moves the position (R380, R451). -/
theorem foldl_renderVoice (g : GroupIx) : ∀ (banks : List Bank) (s : State), s.pos.group = g →
    banks.foldl (fun s' b => renderVoice b s') s =
      banks.foldl (fun s' b => gatedUnit (slotIx b g) (pcmTick (slotIx b g)) s') s
  | [], _, _ => rfl
  | b :: banks, s, h => by
    have hrest := foldl_renderVoice g banks (renderVoice b s) (by rw [pos_renderVoice, h])
    rw [List.foldl_cons, List.foldl_cons, hrest, renderVoice_eq, h]

/-- Settles O39: the row is its four voices in order. -/
theorem syncThreeRowRunsFourVoices : Obligations.SyncThreeRowRunsFourVoices := by
  unfold Obligations.SyncThreeRowRunsFourVoices
  rintro alg s g rfl
  have hexec : exec (.sync3 alg) s = .next ([0, 1, 2, 3].foldl (fun s' b => renderVoice b s') s) := rfl
  rw [hexec, foldl_renderVoice _ _ s rfl]

end Sys2Proof.Machine
end

section
/-! PROOFS. The port interface: the defined reads (spec/40_port_interface.md R150 to R152), key-off (R171), the PCM
parameter writes (spec/42_pcm_timer_registers.md R201 to R210) and the group write (R211). -/

namespace Sys2Proof.Machine

open Sys2Proof Host

/-! ### Reads -/

/-- Settles O9: the status reads return the two status bytes, and a read of port 2 advances the external cursor. -/
theorem definedReadsReturnTheirBytes : Obligations.DefinedReadsReturnTheirBytes := by
  unfold Obligations.DefinedReadsReturnTheirBytes
  intro s
  obtain ⟨hframe, haddr, hlatch⟩ := advanceExt_spec s
  refine ⟨⟨_, rfl, statusByte0_bits s⟩, ⟨_, rfl, statusByte1_bits s⟩, _, rfl, ?frame, rfl, haddr, hlatch⟩
  case frame => exact congrArg (fun u : State => { u with result := s.result }) hframe

/-! ### Key-off -/

/-- A key write whose bit 0 is clear keys its slot off (R171). -/
theorem putKey_off {d : Byte} (h : d.getLsbD 0 = false) : putKey d = fun i s => s.modSlot i keyOffSlot := by
  funext i s
  rw [putKey, h]
  rfl

/-- Settles O13: a key-off is a synchronised write of the slots, which leaves the inactive ones as they are. -/
theorem keyOffReleasesActiveSiblings : Obligations.KeyOffReleasesActiveSiblings := by
  unfold Obligations.KeyOffReleasesActiveSiblings
  intro bank n d s hn hd
  have hexec : exec (.fmKey bank n d) s = .next (fmWrite true bank n d (fun i s1 => s1.modSlot i keyOffSlot) s) := by
    rw [← putKey_off hd]
    rfl
  obtain ⟨hframe, hstores, hslots⟩ := fmWrite_writes true bank n d keyOffSlot s hn
  refine ⟨_, hexec, hframe, hstores, fun i => ?_⟩
  rw [hslots i]
  simp only [Bool.and_eq_true, ite_and]
  rfl

/-! ### PCM parameters -/

/-- The three writes of part of a 23-bit register, in the words of the claims (R85). -/
theorem withPart_eq (x : Addr) (d : Byte) :
    withLow x d = BitVec.ofNat 23 (x.toNat / 256 * 256 + d.toNat) ∧
      withMid x d = BitVec.ofNat 23 (x.toNat / 65536 * 65536 + d.toNat * 256 + x.toNat % 256) ∧
      withHigh x d = BitVec.ofNat 23 (d.toNat % 128 * 65536 + x.toNat % 65536) := by
  obtain ⟨hlow, hmid, hhigh⟩ := withPart_toNat x d
  rw [← hlow, ← hmid, ← hhigh]
  simp

/-- An instruction whose meaning is a PCM write of fields changes the one slot that it names (R200). -/
theorem runsWriting_pcm {n : Nibble} {d : Byte} {f : Slot → Slot} {i : Instr} {s : State}
    (hn : selectorValid n = true) (h : exec i s = .next (pcmWrite n d f s)) :
    RunsWriting 0x9#4 d (namesPcmSlot n) f i s :=
  ⟨_, h, pcmWrite_writes n d f s hn⟩

/-- Settles O14: the ten rows write the byte of an address, or the slices of the format byte. -/
theorem pcmWritesReplaceTheirOwnBits : Obligations.PcmWritesReplaceTheirOwnBits := by
  unfold Obligations.PcmWritesReplaceTheirOwnBits
  intro n d s hn
  have low (x : Addr) := (withPart_eq x d).1
  have mid (x : Addr) := (withPart_eq x d).2.1
  have high (x : Addr) := (withPart_eq x d).2.2
  simp only [bits_eq, ← low, ← mid, ← high]
  refine ⟨?_, ?_, ?_, ?_, ?_, ?_, ?_, ?_, ?_, ?_⟩ <;> exact runsWriting_pcm hn rfl

/-! ### Groups -/

/-- The group that a timer sub-address names under the two decodes, in the words of the claims (R211). -/
theorem groupDecode_eq_some : ∀ (n : Nibble) (g : GroupIx),
    (groupDecode .fmTab n = some g ↔ n.toNat % 4 ≠ 3 ∧ g.val = selectedGroup n) ∧
      (groupDecode .direct n = some g ↔ g.val = n.toNat) := by decide

theorem groupDecode_iff (mode : TimerGroupDecode) (n : Nibble) (g : GroupIx) :
    groupDecode mode n = some g ↔
      (mode = .fmTab ∧ n.toNat % 4 ≠ 3 ∧ g.val = selectedGroup n) ∨ (mode = .direct ∧ g.val = n.toNat) := by
  obtain ⟨hfmTab, hdirect⟩ := groupDecode_eq_some n g
  cases mode
  · simp [hfmTab]
  · simp [hdirect]

/-- The group write as one update of the group that the decode names (R211). -/
theorem exec_grpSync (n : Nibble) (d : Byte) (s : State) : ∃ t, exec (.grpSync n d) s = .next t ∧
    { t with groups := s.groups, regs := s.regs } = s ∧ t.regs = (storeTimer d s).regs ∧
    ∀ g : GroupIx, t.group g =
      if groupDecode s.config.timerGroupDecode n = some g then
        { s.group g with sync := d.extractLsb' 0 2, pfm := d.getLsbD 7 }
      else s.group g := by
  refine ⟨_, rfl, ?_⟩
  cases groupDecode s.config.timerGroupDecode n with
  | none => exact ⟨rfl, rfl, fun g => rfl⟩
  | some h =>
    refine ⟨rfl, rfl, fun g => ?_⟩
    dsimp only
    rw [group_setGroup]
    by_cases hg : g = h
    · subst hg
      rw [if_pos rfl, if_pos rfl]
      rfl
    · rw [if_neg hg, if_neg fun he => hg (Option.some.inj he).symm]
      rfl

/-- Settles O16: the decode that the configuration names, and the fields of the data byte. -/
theorem groupSyncWritesOneGroup : Obligations.GroupSyncWritesOneGroup := by
  unfold Obligations.GroupSyncWritesOneGroup
  intro n d s
  obtain ⟨t, hexec, hframe, hregs, hgroups⟩ := exec_grpSync n d s
  refine ⟨t, hexec, hframe, storesByte_of_regs hregs, fun g => ?_⟩
  simp only [hgroups g, groupDecode_iff, bits_eq]

end Sys2Proof.Machine
end

section
/-! PROOFS. The values of the sound path: operator results (spec/45_operator.md R309), the gain tables as truncated
exponentials (R241, R306), the unmodulated phase step (spec/44_lfo_pitch.md R285), the envelope tick by state
(spec/43_envelope.md R238, R239). -/

namespace Sys2Proof.Machine

open Sys2Proof

/-! ### Operator results -/

/-- Settles O41: a wave entry and a fetched sample are signed 16-bit values, and the slot volume is a gain of at most
1. -/
theorem operatorResultsAreSixteenBit : Obligations.OperatorResultsAreSixteenBit := by
  unfold Obligations.OperatorResultsAreSixteenBit
  intro c m t inp hc _
  obtain ⟨hlo, hhi⟩ := calculateOp_range hc t inp
  obtain ⟨hlo', hhi'⟩ := pfmOp_range hc m t inp
  exact ⟨hlo, hhi, hlo', hhi'⟩

/-! ### The gain tables -/

/-- The power of ten of the envelope table, cleared of its root (R241). -/
theorem rpow_pow_160 (i : Nat) : ((10 : ℝ) ^ ((3 * i : ℝ) / 160)) ^ 160 = (10 : ℝ) ^ (3 * i) := by
  rw [← Real.rpow_natCast, ← Real.rpow_mul (by norm_num), ← Real.rpow_natCast]
  congr 1
  push_cast
  ring

/-- Every entry of the envelope table is a truncated exponential: the bracket of integers is the bracket of reals,
raised to the 160th power (R241). -/
theorem evAt_eq_floor {i : Nat} (h : i < 256) : (evAt i : Int) = ⌊(65536 : ℝ) / (10 : ℝ) ^ ((3 * i : ℝ) / 160)⌋ := by
  obtain ⟨hlo, hhi⟩ := evAt_bracket i h
  have hpos : (0 : ℝ) < (10 : ℝ) ^ ((3 * i : ℝ) / 160) := Real.rpow_pos_of_pos (by norm_num) _
  have hlo' : (evAt i * (10 : ℝ) ^ ((3 * i : ℝ) / 160)) ^ 160 ≤ (65536 : ℝ) ^ 160 := by
    rw [mul_pow, rpow_pow_160]
    exact_mod_cast hlo
  have hhi' : (65536 : ℝ) ^ 160 < ((evAt i + 1) * (10 : ℝ) ^ ((3 * i : ℝ) / 160)) ^ 160 := by
    rw [mul_pow, rpow_pow_160]
    exact_mod_cast hhi
  rw [eq_comm, Int.floor_eq_iff, le_div_iff₀ hpos, div_lt_iff₀ hpos]
  exact ⟨le_of_pow_le_pow_left₀ (by norm_num) (by norm_num) hlo', lt_of_pow_lt_pow_left₀ 160 (by positivity) hhi'⟩

/-- Settles O45: both exponents are the ones of the envelope table, the second at twice the index. -/
theorem gainTablesAreTruncatedExponentials : Obligations.GainTablesAreTruncatedExponentials := by
  unfold Obligations.GainTablesAreTruncatedExponentials
  refine ⟨fun i hi => ?envelope, fun i hi => ?level⟩
  case envelope =>
    have hexponent : (i : ℝ) * 96 / 256 / 20 = 3 * i / 160 := by ring
    rw [hexponent]
    exact evAt_eq_floor hi
  case level =>
    have hexponent : 0.75 * (i : ℝ) / 20 = 3 * (2 * i : Nat) / 160 := by push_cast; ring
    rw [hexponent]
    exact evAt_eq_floor (by omega)

/-! ### The unmodulated phase step -/

/-- A quotient without remainder is not rounded. -/
theorem roundHalfEven_of_dvd {num den : Nat} (hden : 0 < den) (h : den ∣ num) : roundHalfEven num den = num / den := by
  have hrem : num % den = 0 := Nat.mod_eq_zero_of_dvd h
  simp [roundHalfEven, hrem, hden]

/-- A quotient with at most `k` binary places and an integer part below `2^(53 - k)` is a binary64 value: rounding
leaves it alone, and the truncation is the one of the exact quotient (R285, I12). -/
theorem truncBinary64_of_dvd {num den shift k : Nat} (hden : 0 < den) (hk : k ≤ 52) (hsmall : num / den < 2 ^ (53 - k))
    (hdvd : den ∣ num * 2 ^ k) : truncBinary64 num den shift = num / (den * 2 ^ shift) := by
  rw [truncBinary64]
  dsimp only
  split
  · next hzero => rw [← Nat.div_div_eq_div_mul, hzero, Nat.zero_div]
  · next hne =>
    have hlog : (num / den).log2 < 53 - k := (Nat.log2_lt hne).mpr hsmall
    generalize (num / den).log2 = e at hlog
    have hplaces : den ∣ num * 2 ^ (52 - e) :=
      hdvd.trans (Nat.mul_dvd_mul_left _ (Nat.pow_dvd_pow 2 (by omega)))
    rw [if_pos (by omega), roundHalfEven_of_dvd hden hplaces, Nat.div_div_eq_div_mul, Nat.pow_add,
      mul_left_comm, mul_comm num, Nat.mul_div_mul_left _ _ (by positivity)]

/-- Under either numerics such a quotient is truncated exactly (I12). -/
theorem truncScaled_of_dvd (c : Config) {num den shift k : Nat} (hden : 0 < den) (hk : k ≤ 52)
    (hsmall : num / den < 2 ^ (53 - k)) (hdvd : den ∣ num * 2 ^ k) :
    truncScaled c num den shift = num / (den * 2 ^ shift) := by
  rw [truncScaled]
  cases c.stepNumerics
  · exact truncBinary64_of_dvd hden hk hsmall hdvd
  · rfl

/-- Twice `pow[block]`, in the words of the claims (R280). -/
theorem powTwice_eq : ∀ block : BitVec 4,
    powTwice block = if block.toNat < 8 then 2 ^ (8 + block.toNat) else 2 ^ (block.toNat - 8) := by decide

theorem truncScaled_mul (c : Config) {q d : Nat} (shift : Nat) (hd : 0 < d) (hq : q < 2 ^ 53) :
    truncScaled c (q * d) d shift = q / 2 ^ shift := by
  have hsmall : q * d / d < 2 ^ (53 - 0) := by rwa [Nat.mul_div_cancel _ hd]
  rw [truncScaled_of_dvd c hd (Nat.zero_le _) hsmall (Dvd.intro_left (q * 2 ^ 0) (by ring)), mul_comm q,
    Nat.mul_div_mul_left _ _ hd]

theorem powTwice_le : ∀ block : BitVec 4, powTwice block ≤ 32768 := by decide

theorem multTwice_le : ∀ multiple : BitVec 4, multTwice multiple ≤ 30 := by decide

/-- The product of F-number, block and multiple fits in 32 bits (R285). -/
theorem pitchProduct_lt (t : Slot) {f : Nat} (hf : f ≤ 4096) :
    f * powTwice t.block * multTwice t.multiple < 2 ^ 32 := by
  have h := Nat.mul_le_mul (Nat.mul_le_mul hf (powTwice_le t.block)) (multTwice_le t.multiple)
  omega

/-- The internal step without detune and pitch modulation: the denominator divides the product (R285). -/
theorem internalStep_unmodulated (c : Config) {t : Slot} (hmod : t.lfoPhasemod = 2 ^ 53)
    (hdetune : (detuneAt c t.detune (keycode t)).num = 0) :
    internalStep c t = t.fns.toNat * powTwice t.block * multTwice t.multiple * 512 / 8192 := by
  have hlt := pitchProduct_lt t (f := t.fns.toNat) (by omega)
  have hfns (den : Nat) :
      ((t.fns.toNat : Int) * den + (detuneAt c t.detune (keycode t)).num).toNat = t.fns.toNat * den := by
    rw [hdetune, add_zero]
    exact Int.toNat_natCast (t.fns.toNat * den)
  have hproduct (den : Nat) : t.fns.toNat * den * powTwice t.block * multTwice t.multiple * 512 * 2 ^ 53 =
      t.fns.toNat * powTwice t.block * multTwice t.multiple * 512 * (den * phasemodUnit) := by
    rw [phasemodUnit]
    ring
  simp only [internalStep, hfns, hmod, hproduct]
  exact truncScaled_mul c 13 (Nat.mul_pos (Nat.succ_pos _) (by decide)) (by omega)

/-- The external step without pitch modulation: the divider leaves at most four binary places (R285). -/
theorem externalStep_unmodulated (c : Config) {t : Slot} (hmod : t.lfoPhasemod = 2 ^ 53) :
    externalStep c t =
      (t.fns11 + 2048) * powTwice t.block * multTwice t.multiple / (2 * 2 ^ t.fs.toNat) / 8 := by
  have hfns : t.fns11 < 2048 := Nat.mod_lt _ (by decide)
  have hlt := pitchProduct_lt t (f := t.fns11 + 2048) (by omega)
  have hdivider : ∀ fs : BitVec 2, 2 * 2 ^ fs.toNat ∣ 2 ^ 4 ∧ 0 < 2 * 2 ^ fs.toNat := by decide
  obtain ⟨hdvd, hpos⟩ := hdivider t.fs
  rw [externalStep, hmod, show (2 ^ 53 : Nat) = phasemodUnit by decide]
  generalize (t.fns11 + 2048) * powTwice t.block * multTwice t.multiple = a at hlt
  generalize 2 * 2 ^ t.fs.toNat = d at hdvd hpos
  have hunit : 0 < phasemodUnit := by decide
  have hsmall : a * phasemodUnit / (d * phasemodUnit) < 2 ^ (53 - 4) := by
    rw [Nat.mul_div_mul_right _ _ hunit]
    exact (Nat.div_le_self a d).trans_lt (hlt.trans (by decide))
  have hplaces : d * phasemodUnit ∣ a * phasemodUnit * 2 ^ 4 := by
    rw [mul_right_comm]
    exact Nat.mul_dvd_mul_right (hdvd.trans (Nat.dvd_mul_left _ _)) _
  rw [truncScaled_of_dvd c (Nat.mul_pos hpos hunit) (by decide) hsmall hplaces, mul_right_comm,
    Nat.mul_div_mul_right _ _ hunit, Nat.div_div_eq_div_mul]
  rfl

theorem toNat_ofNat_of_lt {n : Nat} (h : n < 2 ^ 32) : (BitVec.ofNat 32 n).toNat = n := by
  rw [BitVec.toNat_ofNat, Nat.mod_eq_of_lt h]

/-- Settles O51: both steps are exact quotients, and neither reaches 32 bits. -/
theorem unmodulatedStepIsTheExactQuotient : Obligations.UnmodulatedStepIsTheExactQuotient := by
  unfold Obligations.UnmodulatedStepIsTheExactQuotient
  rintro c t _ _ hmod rfl rfl
  rw [← powTwice_eq]
  refine ⟨fun hwave hdetune => ?internal, fun hwave => ?external⟩
  case internal =>
    have hlt := pitchProduct_lt t (f := t.fns.toNat) (by omega)
    have hstep : calcStep c t = BitVec.ofNat 32 (internalStep c t) := by simp [calcStep, Slot.external, hwave]
    rw [hstep, internalStep_unmodulated c hmod hdetune]
    exact toNat_ofNat_of_lt (by omega)
  case external =>
    have hlt := pitchProduct_lt t (f := t.fns11 + 2048) (by rw [Slot.fns11]; omega)
    have hstep : calcStep c t = BitVec.ofNat 32 (externalStep c t) := by simp [calcStep, Slot.external, hwave]
    rw [hstep, externalStep_unmodulated c hmod]
    exact toNat_ofNat_of_lt ((Nat.div_le_self _ _).trans_lt ((Nat.div_le_self _ _).trans_lt hlt))

/-! ### The envelope tick -/

/-- One tick in DECAY1, as one formula (R238, R239). -/
theorem updateEnvelope_decay1 {t : Slot} (h : t.envState = .decay1) :
    updateEnvelope t = { t with
      active := t.active && decide (0 < t.volume - t.envStepDecay1)
      volume := max (t.volume - t.envStepDecay1) 0
      envState := if 0 < t.volume - t.envStepDecay1 ∧ (t.volume - t.envStepDecay1) / 65536 ≤ decayLevel t
        then .decay2 else .decay1 } := by
  unfold updateEnvelope
  simp only [h, tickDecay1_eq]

/-- One tick in DECAY2, as one formula (R238, R239). -/
theorem updateEnvelope_decay2 {t : Slot} (h : t.envState = .decay2) :
    updateEnvelope t = { t with
      active := t.active && decide (0 < t.volume - t.envStepDecay2)
      volume := max (t.volume - t.envStepDecay2) 0 } := by
  unfold updateEnvelope
  simp only [h, endCheck_eq]

/-- Settles O48: one formula for each state. -/
theorem envelopeTicksByState : Obligations.EnvelopeTicksByState := by
  unfold Obligations.EnvelopeTicksByState
  intro t
  refine ⟨updateEnvelope_frame t, fun h => ?attack, fun h => ?decay1, fun h => ?decay2, fun h => ?release⟩
  case attack => rw [updateEnvelope_attack h]; exact ⟨rfl, rfl, rfl⟩
  case decay1 => rw [updateEnvelope_decay1 h]; exact ⟨rfl, rfl, rfl⟩
  case decay2 => rw [updateEnvelope_decay2 h]; exact ⟨rfl, rfl, h⟩
  case release => rw [updateEnvelope_release h]; exact ⟨rfl, rfl, h⟩

end Sys2Proof.Machine
end

section
/-! PROOFS. The PCM reader (spec/47_pcm_reader.md): the forward loop and the turn of reverse playback (R395, R397,
R399), and the samples in order under the unit step (R400). -/

namespace Sys2Proof.Machine

open Sys2Proof

/-! ### The loop rules -/

/-- Forward playback up to the end address meets no loop event (R395). -/
theorem loopCheck_forward_within {t : Slot} (hdir : t.loopDirection = .forward)
    (h : t.stepptr.toInt / 65536 ≤ t.endaddr.toNat) : loopCheck t = (t, false) := by
  have hsar : ¬(t.endaddr.toNat : Int) < sar t.stepptr.toInt 16 := by rw [sar_eq]; omega
  simp only [loopCheck, hdir, if_neg hsar]

/-- The firing of the forward loop (R395). -/
theorem loopCheck_forward_past {t : Slot} (hdir : t.loopDirection = .forward) (halt : t.altloop = false)
    (hpast : (t.endaddr.toNat : Int) < t.stepptr.toInt / 65536) :
    loopCheck t = ({ t with stepptr := BitVec.ofInt 64 (forwardWrap t t.stepptr.toInt) }, true) := by
  have hsar : (t.endaddr.toNat : Int) < sar t.stepptr.toInt 16 := by rw [sar_eq]; exact hpast
  simp only [loopCheck, hdir, if_pos hsar, halt, Bool.false_eq_true, if_false]

/-- Reverse playback from the loop point on meets no loop event (R397). -/
theorem loopCheck_reverse_within {t : Slot} (hdir : t.loopDirection = .reverse)
    (h : (t.loopaddr.toNat : Int) ≤ t.stepptr.toInt / 65536) : loopCheck t = (t, false) := by
  have hsar : ¬sar t.stepptr.toInt 16 < t.loopaddr.toNat := by rw [sar_eq]; omega
  simp only [loopCheck, hdir, if_neg hsar]

/-- The turn of reverse playback below the loop point (R397). -/
theorem loopCheck_reverse_past {t : Slot} (hdir : t.loopDirection = .reverse)
    (hpast : t.stepptr.toInt / 65536 < t.loopaddr.toNat) :
    loopCheck t =
      ({ t with loopDirection := .forward, stepptr := BitVec.ofInt 64 (snapTo t.loopaddr t.stepptr.toInt) }, true) := by
  have hsar : sar t.stepptr.toInt 16 < t.loopaddr.toNat := by rw [sar_eq]; exact hpast
  simp only [loopCheck, hdir, if_pos hsar]

/-- The pointer of a forward loop by cases: one loop length back where that is enough, else the loop point, else the end
(R395). -/
theorem forwardWrap_eq (t : Slot) {p q : Int} (hq : q = p - ((t.endaddr.toNat : Int) - t.loopaddr.toNat) * 65536) :
    forwardWrap t p =
      if q / 65536 ≤ t.endaddr.toNat then q
      else if t.loopaddr.toNat ≤ t.endaddr.toNat then t.loopaddr.toNat * 65536 + q % 65536
      else t.endaddr.toNat * 65536 + q % 65536 := by
  have hsnap (a : Addr) (x : Int) : snapTo a x / 65536 = a.toNat ∧ snapTo a x % 65536 = x % 65536 := by
    unfold snapTo
    omega
  simp only [forwardWrap, ← hq, sar_eq, decide_eq_true_eq]
  by_cases hback : q / 65536 ≤ t.endaddr.toNat
  · have : ¬(t.endaddr.toNat : Int) < q / 2 ^ 16 := by omega
    rw [if_pos hback, if_neg this, if_neg this]
  · have hpast : (t.endaddr.toNat : Int) < q / 2 ^ 16 := by omega
    obtain ⟨hinteger, hfraction⟩ := hsnap t.loopaddr q
    rw [if_neg hback, if_pos hpast]
    by_cases hloop : t.loopaddr.toNat ≤ t.endaddr.toNat
    · have : ¬(t.endaddr.toNat : Int) < snapTo t.loopaddr q / 2 ^ 16 := by omega
      rw [if_neg this, if_pos hloop, snapTo]
    · have : (t.endaddr.toNat : Int) < snapTo t.loopaddr q / 2 ^ 16 := by omega
      rw [if_pos this, if_neg hloop, snapTo, hfraction]

/-- A wrapped pointer is at most the end, and not below 0 unless the loop point lies beyond the end; 40 bits are enough
for it (R399). -/
theorem forwardWrap_range (t : Slot) {p : Int} (hpast : (t.endaddr.toNat : Int) < p / 65536) :
    forwardWrap t p / 65536 ≤ t.endaddr.toNat ∧ -549755813888 ≤ forwardWrap t p ∧
      (t.loopaddr.toNat ≤ t.endaddr.toNat → 0 ≤ forwardWrap t p) := by
  have hend : t.endaddr.toNat < 8388608 := t.endaddr.isLt
  rw [forwardWrap_eq t rfl]
  split
  · omega
  · split <;> omega

theorem toInt_forwardWrap (t : Slot) {p : Int} (hpast : (t.endaddr.toNat : Int) < p / 65536) :
    (BitVec.ofInt 64 (forwardWrap t p)).toInt = forwardWrap t p := by
  have hend : t.endaddr.toNat < 8388608 := t.endaddr.isLt
  obtain ⟨hhigh, hlow, -⟩ := forwardWrap_range t hpast
  exact BitVec.toInt_ofInt_eq_self (by decide) (by omega) (by omega)

/-- Settles O54, by the firing of each rule: its pointer fits its word, and the wrapped one is at most the end. -/
theorem forwardLoopWrapsAndReverseTurns : Obligations.ForwardLoopWrapsAndReverseTurns := by
  unfold Obligations.ForwardLoopWrapsAndReverseTurns
  refine ⟨?forward, fun t hdir => ⟨loopCheck_reverse_within hdir, fun hpast => ?turn⟩⟩
  case turn =>
    have hfires := loopCheck_reverse_past hdir hpast
    refine ⟨by rw [hfires], loopCheck_frame t, by rw [hfires], ?_⟩
    rw [hfires]
    exact toInt_ofInt_snapTo t.loopaddr t.stepptr.toInt
  case forward =>
    rintro t p q rfl hdir hq
    refine ⟨loopCheck_forward_within hdir, fun halt hpast => ?_⟩
    have hfires := loopCheck_forward_past hdir halt hpast
    have hptr : (loopCheck t).1.stepptr.toInt = forwardWrap t t.stepptr.toInt := by
      rw [hfires]
      exact toInt_forwardWrap t hpast
    obtain ⟨hhigh, -, hlow⟩ := forwardWrap_range t hpast
    rw [hptr]
    exact ⟨by rw [hfires], by rw [hfires], forwardWrap_eq t hq, hhigh, hlow⟩

/-! ### The unit step -/

/-- The slot with another pointer. -/
def Slot.withPointer (t : Slot) (p : BitVec 64) : Slot := { t with stepptr := p }

section withPointer

variable (t : Slot) (p : BitVec 64)

@[simp] theorem stepptr_withPointer : (t.withPointer p).stepptr = p := rfl

@[simp] theorem step_withPointer : (t.withPointer p).step = t.step := rfl

@[simp] theorem loopDirection_withPointer : (t.withPointer p).loopDirection = t.loopDirection := rfl

@[simp] theorem startaddr_withPointer : (t.withPointer p).startaddr = t.startaddr := rfl

@[simp] theorem endaddr_withPointer : (t.withPointer p).endaddr = t.endaddr := rfl

@[simp] theorem bits_withPointer : (t.withPointer p).bits = t.bits := rfl

theorem withPointer_of_eq {t : Slot} {p : BitVec 64} (h : t.stepptr = p) : t.withPointer p = t := by
  subst h
  rfl

/-- Forward playback moves the pointer by the step (R394). -/
theorem pcmAdvance_forward (h : t.loopDirection = .forward) :
    pcmAdvance (t.withPointer p) = t.withPointer (p + t.step.setWidth 64) := by
  simp only [pcmAdvance, Slot.withPointer, h]

end withPointer

/-- The pointer to a sample number. -/
def samplePointer (n : Nat) : BitVec 64 := BitVec.ofNat 64 (n * 65536)

theorem toInt_samplePointer {n : Nat} (h : n < 16777216) : (samplePointer n).toInt = n * 65536 := by
  have hword : (samplePointer n).toNat = n * 65536 := by
    rw [samplePointer, BitVec.toNat_ofNat, Nat.mod_eq_of_lt (by omega)]
  rw [BitVec.toInt_eq_toNat_of_lt (by omega), hword]
  exact Nat.cast_mul n 65536

theorem samplePointer_succ (n : Nat) : samplePointer n + (65536#32).setWidth 64 = samplePointer (n + 1) := by
  rw [samplePointer, samplePointer, Nat.add_one_mul, BitVec.ofNat_add]
  rfl

section UnitStep

variable {t : Slot} (hstep : t.step = 65536#32) (hdir : t.loopDirection = .forward)

include hstep hdir

/-- A unit step short of the end address goes to the next sample without a loop event (R394, R395). -/
theorem advanceAndLoop_samplePointer {n : Nat} (h : n + 1 ≤ t.endaddr.toNat) :
    advanceAndLoop (t.withPointer (samplePointer n)) = (t.withPointer (samplePointer (n + 1)), false) := by
  have hend : t.endaddr.toNat < 8388608 := t.endaddr.isLt
  have hptr : (samplePointer (n + 1)).toInt = (n + 1 : Nat) * 65536 := toInt_samplePointer (by omega)
  rw [advanceAndLoop, pcmAdvance_forward t _ hdir, hstep, samplePointer_succ]
  apply loopCheck_forward_within
  · rw [loopDirection_withPointer, hdir]
  · rw [stepptr_withPointer, endaddr_withPointer, hptr]
    omega

theorem iterate_samplePointer (n : Nat) : ∀ k : Nat, n + k ≤ t.endaddr.toNat →
    (fun v => (advanceAndLoop v).1)^[k] (t.withPointer (samplePointer n)) = t.withPointer (samplePointer (n + k))
  | 0, _ => rfl
  | k + 1, h => by
    have hnext : advanceAndLoop (t.withPointer (samplePointer (n + k))) =
      (t.withPointer (samplePointer (n + (k + 1))), false) := advanceAndLoop_samplePointer hstep hdir h
    rw [Function.iterate_succ_apply', iterate_samplePointer n k (by omega), hnext]

end UnitStep

/-- The sample index of a slot that has played k samples from its sample 0 (R390, R392). -/
theorem sampleIndex_samplePointer (c : Config) (t : Slot) {origin k : Nat}
    (horigin : origin = if c.pcmAddrMode = .relative then 0 else t.startaddr.toNat) (h : origin + k < 16777216)
    (p : BitVec 64) : sampleIndex c (t.withPointer p) (samplePointer (origin + k)).toInt = k := by
  rw [toInt_samplePointer h, sampleIndex]
  cases hmode : c.pcmAddrMode with
  | relative =>
    simp only [hmode, if_true] at horigin
    simp only [sar_eq]
    omega
  | absolute =>
    simp only [hmode, reduceCtorEq, if_false] at horigin
    simp only [sar_eq, startaddr_withPointer]
    omega

/-- Settles O53: the pointer after k steps is at sample k, and the bytes of that sample are those of its format. -/
theorem unitStepPlaysTheSamplesInOrder : Obligations.UnitStepPlaysTheSamplesInOrder := by
  unfold Obligations.UnitStepPlaysTheSamplesInOrder
  intro c m t u k origin horigin hstep hdir hptr hend hu
  have hstart : t.withPointer (samplePointer origin) = t := withPointer_of_eq hptr
  have hreach (j : Nat) (hj : origin + j ≤ t.endaddr.toNat) :
      (fun v => (advanceAndLoop v).1)^[j] t = t.withPointer (samplePointer (origin + j)) := by
    rw [← iterate_samplePointer hstep hdir origin j hj, hstart]
  have hlimit : t.endaddr.toNat < 8388608 := t.endaddr.isLt
  rw [hu, hreach k hend, stepptr_withPointer, sampleIndex_samplePointer c t horigin (by omega)]
  generalize hp : samplePointer (origin + k) = p
  refine ⟨fun j hj => ?event, fun height => ?eight, fun htwelve => ?twelve⟩
  case event => rw [hreach j (by omega), advanceAndLoop_samplePointer hstep hdir (by omega)]
  case eight => exact pcmSample_eight m (t := t.withPointer p) height k
  case twelve =>
    have heven := pcmSample_twelve_even m (t := t.withPointer p) htwelve (k / 2)
    have hodd := pcmSample_twelve_odd m (t := t.withPointer p) htwelve (k / 2)
    rw [startaddr_withPointer, mul_comm 3] at heven hodd
    split
    · next h =>
      have hk : (2 : Int) * (k / 2) = k := by omega
      rwa [hk] at heven
    · next h =>
      have hk : (2 : Int) * (k / 2) + 1 = k := by omega
      rwa [hk] at hodd

end Sys2Proof.Machine
end
